-- ==== Sys2Proof/Word.lean ====
section
/-! DEFINITION. The block's word: one byte, and the finite byte sequences its operations take and return
(00_scope.md R9, R10, R11; 10_state.md R28). -/

namespace Sys2Proof

/-- `u8` of R11 and R28: eight bits, bit 0 the least significant (R9). Every value is unsigned. -/
abbrev Byte := BitVec 8

/-- `Bytes` of R10 and R28: a finite sequence of bytes, index 0 first in every sense. -/
abbrev Bytes := List Byte

end Sys2Proof
end

