-- ==== Sys2Proof/Config.lean ====
section
/-! DEFINITION. The implementation parameters of 00_scope.md R7: the constants, and the three code maps the spec
calls parameters (`CMD_*`, `TYPE_CODE`, `ST_*`) with their default values. The block leaves no value open, so there
is no free value here. -/

namespace Sys2Proof

/-! ### Constants of R7 -/

/-- `CRC_POLY` (R7): x^8 + x^5 + x^4 + 1, the x^8 term implicit. Used by the literal form of the checksum (R72). -/
abbrev Config.crcPoly : Byte := 0x31#8

/-- `CRC_POLY_REFLECTED` (R7): the bit reversal of `CRC_POLY`. Used by the checksum step (R70). -/
abbrev Config.crcPolyReflected : Byte := 0x8C#8

/-- `CRC_INIT` (R7): the initial value of every checksum (R73), and the reset value of `CRC` (R21). -/
abbrev Config.crcInit : Byte := 0x00#8

/-- `CRC_XOROUT` (R7): no final exclusive-or. -/
abbrev Config.crcXorOut : Byte := 0x00#8

/-- `HDR_SIZE` (R7): bytes of a frame's header. -/
abbrev Config.hdrSize : Nat := 4

/-- `CRC_SIZE` (R7): bytes of a frame's checksum. -/
abbrev Config.crcSize : Nat := 1

/-- `MAX_PAYLOAD` (R7). -/
abbrev Config.maxPayload : Nat := 128

/-- `MIN_FRAME` (R7): header, no payload, checksum. -/
abbrev Config.minFrame : Nat := Config.hdrSize + Config.crcSize

/-- `MAX_FRAME` (R7): header, the largest payload, checksum. -/
abbrev Config.maxFrame : Nat := Config.hdrSize + Config.maxPayload + Config.crcSize

/-- `RX_MAX` (R7, R41): the longest buffer `DECODE` accepts. -/
abbrev Config.rxMax : Nat := 133

/-! ### What the parameters are indexed by -/

/-- The six operations a request can ask for (30_encoding.md R58). -/
inductive Command where
  | crcClr
  | crcLoad
  | crcByte
  | crcRead
  | encode
  | decode
deriving DecidableEq, Repr

/-- All six, in the order of the table for R58. -/
def Command.all : List Command := [.crcClr, .crcLoad, .crcByte, .crcRead, .encode, .decode]

/-- The ten packet types (30_encoding.md R55). -/
inductive PacketType where
  | set
  | get
  | success
  | failureUnknownRegister
  | failureBadLength
  | failureNotSupported
  | failureBadPassword
  | failureBadSignature
  | failureHalError
  | failureBadParameter
deriving DecidableEq, Repr

/-- All ten, in the order of the table for R55. -/
def PacketType.all : List PacketType :=
  [.set, .get, .success, .failureUnknownRegister, .failureBadLength, .failureNotSupported, .failureBadPassword,
    .failureBadSignature, .failureHalError, .failureBadParameter]

/-- The result kinds that carry a numeric code (60_exceptions.md R121). -/
inductive ResultKind where
  | ok
  | payloadTooLarge
  | truncated
  | checksumMismatch
deriving DecidableEq, Repr

/-! ### The parameters and their defaults -/

/-- `TYPE_CODE(GET)` (R7, R55): the one packet type code the source gives, a constant and no parameter. -/
abbrev Config.typeGet : Byte := 0x02#8

/-- `CMD_*` (R59). -/
structure CommandCodes where
  crcClr : Byte
  crcLoad : Byte
  crcByte : Byte
  crcRead : Byte
  encode : Byte
  decode : Byte
deriving DecidableEq, Repr

/-- `TYPE_CODE(t)` for the nine packet types other than `GET` (R7, R55). -/
structure TypeCodes where
  set : Byte
  success : Byte
  failureUnknownRegister : Byte
  failureBadLength : Byte
  failureNotSupported : Byte
  failureBadPassword : Byte
  failureBadSignature : Byte
  failureHalError : Byte
  failureBadParameter : Byte
deriving DecidableEq, Repr

/-- `ST_*` (R121). -/
structure StatusCodes where
  ok : Byte
  payloadTooLarge : Byte
  truncated : Byte
  checksumMismatch : Byte
deriving DecidableEq, Repr

/-- The parameters of R7, as plain data: the command codes, the packet type codes and the result codes. A machine has
one value of it, in its state (assumption 4). -/
structure Codes where
  commands : CommandCodes
  types : TypeCodes
  statuses : StatusCodes
deriving DecidableEq, Repr

/-- The command byte of an operation (R59). -/
def Codes.cmd (k : Codes) : Command → Byte
  | .crcClr => k.commands.crcClr
  | .crcLoad => k.commands.crcLoad
  | .crcByte => k.commands.crcByte
  | .crcRead => k.commands.crcRead
  | .encode => k.commands.encode
  | .decode => k.commands.decode

/-- `TYPE_CODE` (R55). -/
def Codes.type (k : Codes) : PacketType → Byte
  | .set => k.types.set
  | .get => Config.typeGet
  | .success => k.types.success
  | .failureUnknownRegister => k.types.failureUnknownRegister
  | .failureBadLength => k.types.failureBadLength
  | .failureNotSupported => k.types.failureNotSupported
  | .failureBadPassword => k.types.failureBadPassword
  | .failureBadSignature => k.types.failureBadSignature
  | .failureHalError => k.types.failureHalError
  | .failureBadParameter => k.types.failureBadParameter

/-- The numeric code of a result kind (R121). -/
def Codes.status (k : Codes) : ResultKind → Byte
  | .ok => k.statuses.ok
  | .payloadTooLarge => k.statuses.payloadTooLarge
  | .truncated => k.statuses.truncated
  | .checksumMismatch => k.statuses.checksumMismatch

/-- What the spec demands of the parameters: "The six codes must be pairwise different" (R59); "ten pairwise
different `u8` values with `TYPE_CODE(GET) = 0x02`" (R55), the latter by `Codes.type`. Nothing is demanded of the
result codes (R121). -/
def Codes.legal (k : Codes) : Bool :=
  decide (Command.all.map k.cmd).Nodup && decide (PacketType.all.map k.type).Nodup

/-- Default command codes (R59). -/
def Config.commandCodes : CommandCodes :=
  { crcClr := 0x00#8, crcLoad := 0x01#8, crcByte := 0x02#8, crcRead := 0x03#8, encode := 0x10#8, decode := 0x20#8 }

/-- Default packet type codes (table for R55). -/
def Config.typeCodes : TypeCodes :=
  { set := 0x01#8, success := 0x03#8, failureUnknownRegister := 0x04#8, failureBadLength := 0x05#8,
    failureNotSupported := 0x06#8, failureBadPassword := 0x07#8, failureBadSignature := 0x08#8,
    failureHalError := 0x09#8, failureBadParameter := 0x0A#8 }

/-- Default result codes (R121). -/
def Config.statusCodes : StatusCodes :=
  { ok := 0x00#8, payloadTooLarge := 0x01#8, truncated := 0x02#8, checksumMismatch := 0x03#8 }

/-- The default parameters, which the reset state has (assumption 4). -/
def Config.codes : Codes :=
  { commands := Config.commandCodes, types := Config.typeCodes, statuses := Config.statusCodes }

end Sys2Proof
end

