-- ==== Sys2Proof/Syntax.lean ====
section
/-! DEFINITION. The abstract syntax: one constructor of `Instr` per row of spec/opcode_table.json (six rows of
format `OP`, ten of format `FRAME`, 30_encoding.md R65), and the four pseudo-operations of R63. -/

namespace Sys2Proof

/-- The fields of a wire frame other than its type byte (20_memory.md R32, 30_encoding.md R50 to R57). The type byte
is told by the constructor of `Instr` that carries the fields. -/
structure FrameFields where
  /-- `dev_addr`, offset 0 (R52) -/
  dev : Byte
  /-- `reg_addr`, offset 2 (R54) -/
  reg : Byte
  /-- `length` (`LEN`), offset 3 (R56): any of the 256 values can be received -/
  len : Byte
  /-- the bytes between the header and the checksum byte: the payload and any excess bytes (R33) -/
  body : Bytes
  /-- `crc`, the last byte (R57) as it was received -/
  crc : Byte
deriving DecidableEq, Repr

/-- The operations of the block (R58) and the frames of the ten packet types (R55). -/
inductive Instr where
  /-- `CRC.CLR` (40_crc.md R81) -/
  | crcClr
  /-- `CRC.LOAD v` (R82) -/
  | crcLoad (v : Byte)
  /-- `CRC.BYTE b` (R83) -/
  | crcByte (b : Byte)
  /-- `CRC.READ` (R84) -/
  | crcRead
  /-- `ENCODE dev, type, reg, req_len, payload` (41_encoder.md R96); `payload` of any finite length (R41) -/
  | encode (dev type reg reqLen : Byte) (payload : Bytes)
  /-- `DECODE raw` (42_decoder.md R112) -/
  | decode (raw : Bytes)
  /-- a frame of type `SET` (30_encoding.md R55), handed to the block -/
  | set (f : FrameFields)
  /-- a frame of type `GET` -/
  | get (f : FrameFields)
  /-- a frame of type `SUCCESS` -/
  | success (f : FrameFields)
  /-- a frame of type `FAILURE_UNKNOWN_REGISTER` -/
  | failureUnknownRegister (f : FrameFields)
  /-- a frame of type `FAILURE_BAD_LENGTH` -/
  | failureBadLength (f : FrameFields)
  /-- a frame of type `FAILURE_NOT_SUPPORTED` -/
  | failureNotSupported (f : FrameFields)
  /-- a frame of type `FAILURE_BAD_PASSWORD` -/
  | failureBadPassword (f : FrameFields)
  /-- a frame of type `FAILURE_BAD_SIGNATURE` -/
  | failureBadSignature (f : FrameFields)
  /-- a frame of type `FAILURE_HAL_ERROR` -/
  | failureHalError (f : FrameFields)
  /-- a frame of type `FAILURE_BAD_PARAMETER` -/
  | failureBadParameter (f : FrameFields)
deriving DecidableEq, Repr

/-- The four pseudo-operations of R63. -/
inductive Pseudo where
  /-- `CRC.SUM B`: the source's `checksum(bytes)` -/
  | crcSum (bytes : Bytes)
  /-- `CRC.UPDATE c, B`: the source's `checksum_update(running_crc, bytes)` -/
  | crcUpdate (c : Byte) (bytes : Bytes)
  /-- `ENCODE.DATA dev, type, reg, payload`: the four-operand `encode` -/
  | encodeData (dev type reg : Byte) (payload : Bytes)
  /-- `ENCODE.REQ dev, type, reg, n`: the request-shaped call -/
  | encodeReq (dev type reg n : Byte)
deriving DecidableEq, Repr

end Sys2Proof
end

