-- ==== Sys2Proof/WellFormed.lean ====
section
/-! DEFINITION. Which terms of `Instr` have an encoding: the operands fit the request format (30_encoding.md R58)
or the frame format (R50). An ill-formed `ENCODE` still has a meaning (its payload is too long for one length byte,
not for the abstract operation, R41); an ill-formed `DECODE` or frame is refused (60_exceptions.md R128). -/

namespace Sys2Proof

/-- A frame is at most `MAX_FRAME` bytes (R50): at most 128 bytes between header and checksum byte. -/
def FrameFields.wellFormed (f : FrameFields) : Bool := decide (f.body.length ≤ Config.maxPayload)

/-- The operands of an operation fit its encoding: the payload length of `ENCODE` fits one byte (R58), the buffer of
`DECODE` is at most `RX_MAX` bytes (R41), a frame is at most `MAX_FRAME` bytes (R50). -/
def Instr.wellFormed : Instr → Bool
  | .crcClr => true
  | .crcLoad _ => true
  | .crcByte _ => true
  | .crcRead => true
  | .encode _ _ _ _ payload => decide (payload.length ≤ 255)
  | .decode raw => decide (raw.length ≤ Config.rxMax)
  | .set f => f.wellFormed
  | .get f => f.wellFormed
  | .success f => f.wellFormed
  | .failureUnknownRegister f => f.wellFormed
  | .failureBadLength f => f.wellFormed
  | .failureNotSupported f => f.wellFormed
  | .failureBadPassword f => f.wellFormed
  | .failureBadSignature f => f.wellFormed
  | .failureHalError f => f.wellFormed
  | .failureBadParameter f => f.wellFormed

end Sys2Proof
end

