-- ==== Sys2Proof/Decode.lean ====
section
/-! DEFINITION. From bytes to operations and back (30_encoding.md): operation requests (R58, R59), wire frames
(R50 to R57) classified by their type byte (R55, R65), the header word (R51), the opcode table's rows (R65), and the
numbering the host uses for a row's word. Decoding is total and rejects by name. Everything that reads a code is
defined for any parameters `k : Codes`; the names without `With` use the defaults. -/

namespace Sys2Proof

/-! ### Looking a code up -/

/-- The operation a command byte asks for (R59); none when the byte is unassigned. -/
def Command.ofCode (k : Codes) (b : Byte) : Option Command := Command.all.find? fun c => k.cmd c == b

/-- The packet type a type byte names (R55); none when it is outside the enumeration. -/
def PacketType.ofCode (k : Codes) (b : Byte) : Option PacketType := PacketType.all.find? fun t => k.type t == b

/-! ### Frames as bytes -/

/-- The bytes of a frame with type byte `ty`, in transmission order (20_memory.md R32, R35). -/
def FrameFields.bytes (ty : Byte) (f : FrameFields) : Bytes :=
  [f.dev, ty, f.reg, f.len] ++ f.body ++ [f.crc]

/-- The operation that a frame of type `t` stands for: the row of the opcode table that the type byte selects (R65). -/
def Instr.ofFrame : PacketType → FrameFields → Instr
  | .set, f => .set f
  | .get, f => .get f
  | .success, f => .success f
  | .failureUnknownRegister, f => .failureUnknownRegister f
  | .failureBadLength, f => .failureBadLength f
  | .failureNotSupported, f => .failureNotSupported f
  | .failureBadPassword, f => .failureBadPassword f
  | .failureBadSignature, f => .failureBadSignature f
  | .failureHalError, f => .failureHalError f
  | .failureBadParameter, f => .failureBadParameter f

/-- Cut a buffer into the fields of a frame; none when it is shorter than `MIN_FRAME` (R50). The last byte of the
buffer is the checksum byte, wherever the `LEN` field points (R60). -/
def splitFrame : Bytes → Option (Byte × FrameFields)
  | dev :: ty :: reg :: len :: rest =>
    match rest.getLast? with
    | some c => some (ty, { dev := dev, reg := reg, len := len, body := rest.dropLast, crc := c })
    | none => none
  | _ => none

/-- The classifier of packet types that R65 speaks of: the frame's row in the opcode table, with its fields. -/
def classifyFrameWith (k : Codes) (raw : Bytes) : Option (PacketType × FrameFields) :=
  match splitFrame raw with
  | some (ty, f) => (PacketType.ofCode k ty).map fun t => (t, f)
  | none => none

/-! ### The header word (R51) -/

/-- `H = dev_addr * 2^24 + type * 2^16 + reg_addr * 2^8 + length`. -/
def headerWord (dev ty reg len : Byte) : Nat :=
  dev.toNat * 2 ^ 24 + ty.toNat * 2 ^ 16 + reg.toNat * 2 ^ 8 + len.toNat

/-- Byte `i` of a number: bits `8*i + 7` down to `8*i`. -/
def wordByte (w i : Nat) : Byte := BitVec.ofNat 8 (w >>> (8 * i))

/-- The four header bytes of `H` in transmission order: `H[31:24]` first. -/
def headerBytes (h : Nat) : Bytes := [wordByte h 3, wordByte h 2, wordByte h 1, wordByte h 0]

/-! ### What is presented to the block, and why it can be rejected -/

/-- The bytes a client can present: a request (R58), or a frame it holds (00_scope.md R6 (b)). -/
inductive Words where
  | request (bytes : Bytes)
  | frame (raw : Bytes)
deriving DecidableEq, Repr

/-- Why a request is not an operation. The first two are R128's; the last two are requests that do not have the
format of R58 at all (assumption 6, DESIGN CHOICE). -/
inductive RequestReject where
  /-- the command byte is unassigned (R59) -/
  | unassignedCommand (cmd : Byte)
  /-- a buffer of `n` bytes, more than `RX_MAX` (R41) -/
  | rawTooLong (n : Nat)
  /-- fewer bytes than the request announces -/
  | incomplete
  /-- more bytes than the request announces -/
  | overlong
deriving DecidableEq, Repr

/-! ### Decoding -/

/-- An operation without operand bytes (R58). -/
def noOperand (i : Instr) : Bytes → Except RequestReject Instr
  | [] => .ok i
  | _ :: _ => .error .overlong

/-- An operation with one operand byte (R58). -/
def oneOperand (mk : Byte → Instr) : Bytes → Except RequestReject Instr
  | [] => .error .incomplete
  | [v] => .ok (mk v)
  | _ :: _ :: _ => .error .overlong

/-- "A byte-sequence operand is preceded by its length as one byte" (R58): exactly `n` bytes follow. -/
def sizedOperand (mk : Bytes → Instr) (n : Nat) (rest : Bytes) : Except RequestReject Instr :=
  if rest.length < n then .error .incomplete
  else if n < rest.length then .error .overlong
  else .ok (mk rest)

/-- The operands of `ENCODE` (R58). -/
def encodeOperands : Bytes → Except RequestReject Instr
  | dev :: ty :: reg :: reqLen :: plen :: rest => sizedOperand (.encode dev ty reg reqLen) plen.toNat rest
  | _ => .error .incomplete

/-- The operand of `DECODE` (R58): an announced length above `RX_MAX` is rejected before any further byte is looked
at (V-REQ13). -/
def decodeOperands : Bytes → Except RequestReject Instr
  | [] => .error .incomplete
  | n :: rest =>
    if Config.rxMax < n.toNat then .error (.rawTooLong n.toNat) else sizedOperand .decode n.toNat rest

/-- A request: a command byte, then the operands of its operation; consumed whole (R58, R59). -/
def decodeRequestWith (k : Codes) : Bytes → Except RequestReject Instr
  | [] => .error .incomplete
  | cmd :: operands =>
    match Command.ofCode k cmd with
    | none => .error (.unassignedCommand cmd)
    | some .crcClr => noOperand .crcClr operands
    | some .crcLoad => oneOperand .crcLoad operands
    | some .crcByte => oneOperand .crcByte operands
    | some .crcRead => noOperand .crcRead operands
    | some .encode => encodeOperands operands
    | some .decode => decodeOperands operands

/-- A frame presented to the block: its row of the opcode table when it has one (R65), plain `DECODE` when it is too
short to have a header and a checksum or when its type is outside the enumeration, because the decoder takes such
buffers all the same (R61 items 2 and 4, R105; assumption 8, DEDUCED). Longer than `RX_MAX` is rejected (R128). -/
def decodeFrameWith (k : Codes) (raw : Bytes) : Except RequestReject Instr :=
  if Config.rxMax < raw.length then .error (.rawTooLong raw.length)
  else
    match classifyFrameWith k raw with
    | some (t, f) => .ok (.ofFrame t f)
    | none => .ok (.decode raw)

/-- The decoder, total on any bytes. -/
def decodeWith (k : Codes) : Words → Except RequestReject Instr
  | .request bytes => decodeRequestWith k bytes
  | .frame raw => decodeFrameWith k raw

/-- The decoder with the default codes. -/
def decode (w : Words) : Except RequestReject Instr := decodeWith Config.codes w

/-! ### Encoding -/

/-- The words of an operation (R58, R59) or of a frame (R50, R55). -/
def encodeWith (k : Codes) : Instr → Words
  | .crcClr => .request [k.cmd .crcClr]
  | .crcLoad v => .request [k.cmd .crcLoad, v]
  | .crcByte b => .request [k.cmd .crcByte, b]
  | .crcRead => .request [k.cmd .crcRead]
  | .encode dev ty reg reqLen payload =>
    .request ([k.cmd .encode, dev, ty, reg, reqLen, BitVec.ofNat 8 payload.length] ++ payload)
  | .decode raw => .request ([k.cmd .decode, BitVec.ofNat 8 raw.length] ++ raw)
  | .set f => .frame (f.bytes (k.type .set))
  | .get f => .frame (f.bytes (k.type .get))
  | .success f => .frame (f.bytes (k.type .success))
  | .failureUnknownRegister f => .frame (f.bytes (k.type .failureUnknownRegister))
  | .failureBadLength f => .frame (f.bytes (k.type .failureBadLength))
  | .failureNotSupported f => .frame (f.bytes (k.type .failureNotSupported))
  | .failureBadPassword f => .frame (f.bytes (k.type .failureBadPassword))
  | .failureBadSignature f => .frame (f.bytes (k.type .failureBadSignature))
  | .failureHalError f => .frame (f.bytes (k.type .failureHalError))
  | .failureBadParameter f => .frame (f.bytes (k.type .failureBadParameter))

/-- The encoder with the default codes. -/
def encode (i : Instr) : Words := encodeWith Config.codes i

/-! ### The opcode table (R65) -/

/-- One row: `match` and `mask` apply to the command byte (`width` 8) or to the header word (`width` 32). -/
structure Row where
  mnemonic : String
  width : Nat
  pattern : Nat
  mask : Nat
deriving DecidableEq, Repr

/-- A row of format `OP`. -/
def Row.op (mnemonic : String) (code : Nat) : Row := ⟨mnemonic, 8, code, 0xFF⟩

/-- A row of format `FRAME`. -/
def Row.frame (mnemonic : String) (code : Nat) : Row := ⟨mnemonic, 32, code * 0x10000, 0x00FF0000⟩

/-- spec/opcode_table.json, row by row. -/
def opcodeTable : List Row :=
  [.op "CRC.CLR" 0x00, .op "CRC.LOAD" 0x01, .op "CRC.BYTE" 0x02, .op "CRC.READ" 0x03, .op "ENCODE" 0x10,
    .op "DECODE" 0x20, .frame "SET" 0x01, .frame "GET" 0x02, .frame "SUCCESS" 0x03,
    .frame "FAILURE_UNKNOWN_REGISTER" 0x04, .frame "FAILURE_BAD_LENGTH" 0x05, .frame "FAILURE_NOT_SUPPORTED" 0x06,
    .frame "FAILURE_BAD_PASSWORD" 0x07, .frame "FAILURE_BAD_SIGNATURE" 0x08, .frame "FAILURE_HAL_ERROR" 0x09,
    .frame "FAILURE_BAD_PARAMETER" 0x0A]

/-- The mnemonic of an operation, as the table spells it. -/
def Instr.mnemonic : Instr → String
  | .crcClr => "CRC.CLR"
  | .crcLoad _ => "CRC.LOAD"
  | .crcByte _ => "CRC.BYTE"
  | .crcRead => "CRC.READ"
  | .encode _ _ _ _ _ => "ENCODE"
  | .decode _ => "DECODE"
  | .set _ => "SET"
  | .get _ => "GET"
  | .success _ => "SUCCESS"
  | .failureUnknownRegister _ => "FAILURE_UNKNOWN_REGISTER"
  | .failureBadLength _ => "FAILURE_BAD_LENGTH"
  | .failureNotSupported _ => "FAILURE_NOT_SUPPORTED"
  | .failureBadPassword _ => "FAILURE_BAD_PASSWORD"
  | .failureBadSignature _ => "FAILURE_BAD_SIGNATURE"
  | .failureHalError _ => "FAILURE_HAL_ERROR"
  | .failureBadParameter _ => "FAILURE_BAD_PARAMETER"

/-- The number a row's mask applies to: the command byte of a request, the header word of a frame (R65), with the
width it has; none when there are too few bytes. -/
def Words.selector : Words → Option (Nat × Nat)
  | .request (cmd :: _) => some (8, cmd.toNat)
  | .frame (dev :: ty :: reg :: len :: _) => some (32, headerWord dev ty reg len)
  | _ => none

/-- The row selects these words. -/
def Row.selects (r : Row) (w : Words) : Bool :=
  match w.selector with
  | some (width, n) => width == r.width && (n &&& r.mask) == r.pattern
  | none => false

/-! ### The host's numbering of a table word -/

/-- How many bytes the request has whose byte `i` is `byte i` (R58). -/
def requestLength (k : Codes) (byte : Nat → Byte) : Nat :=
  match Command.ofCode k (byte 0) with
  | none => 1
  | some .crcClr => 1
  | some .crcLoad => 2
  | some .crcByte => 2
  | some .crcRead => 1
  | some .encode => 6 + (byte 5).toNat
  | some .decode => 2 + (byte 1).toNat

/-- The words of a table row's number `w`. A row of 32 bits is a header word, whose bytes go out from bits 31..24 down
to bits 7..0 (R51), and the checksum byte that follows it is 0; any other row is a request whose byte `i` is bits
`8*i + 7` to `8*i`, as long as the request format makes it (assumption 9, DESIGN CHOICE). -/
def tableWords (nbits w : Nat) : Words :=
  let v := w % 2 ^ nbits
  if nbits = 32 then .frame (headerBytes v ++ [0x00#8])
  else .request ((List.range (requestLength Config.codes (wordByte v))).map (wordByte v))

/-- What the decoder reads from a table row's word. -/
def decodeTableWord (nbits w : Nat) : Option Instr :=
  match decode (tableWords nbits w) with
  | .ok i => some i
  | .error _ => none

end Sys2Proof
end

