-- ==== Sys2Proof/Machine/State.lean ====
section
/-! DEFINITION. What the machine's state is: the block's one register (10_state.md R20), the parameters it was built
with (00_scope.md R7, assumption 4), and the model's own fields for the two sides of the operation port, what has
arrived and what has been delivered (assumptions 1 to 3). The block has no memory (R29), so State has none. -/

namespace Sys2Proof.Machine

/-- The decoded structure of a packet (R28, 42_decoder.md R111): four raw header bytes and the payload. -/
structure Packet where
  dev : Byte
  type : Byte
  reg : Byte
  len : Byte
  payload : Bytes
deriving DecidableEq, Repr

/-- `EncodeError` of R28. -/
inductive EncodeError where
  | payloadTooLarge
deriving DecidableEq, Repr

/-- `DecodeError` of R28. -/
inductive DecodeError where
  | truncated
  | checksumMismatch
deriving DecidableEq, Repr

/-- The three error kinds of the block (60_exceptions.md R120): bare tags, nothing recorded with them. -/
inductive ErrorKind where
  | payloadTooLarge
  | truncated
  | checksumMismatch
deriving DecidableEq, Repr

/-- What an operation hands to the client (R28, R122). -/
inductive Result where
  /-- `Ok`: `CRC.CLR`, `CRC.LOAD`, `CRC.BYTE` -/
  | ok
  /-- the `u8` of `CRC.READ` -/
  | byte (v : Byte)
  /-- `Frame(F)` of `ENCODE` -/
  | frame (bytes : Bytes)
  /-- `Packet(...)` of `DECODE` -/
  | packet (p : Packet)
  /-- an error result, delivered exactly as a success result would be (R123) -/
  | error (e : ErrorKind)
deriving DecidableEq, Repr

/-- Whether the first reset has happened (70_reset_and_hazards.md R140): before it every request is refused (R128). -/
inductive Phase where
  | beforeFirstReset
  | running
deriving DecidableEq, Repr

/-- What arrives at the block: a reset, applied by the environment between operations (R140); the bytes of a request
or a frame (R58, R6 (b)); or an operation in the abstract form with typed operands, which R58 allows instead of
bytes. -/
inductive Arrival where
  | reset
  | words (w : Words)
  | operation (i : Instr)
deriving DecidableEq, Repr

/-- The machine. `crc` is all the state the spec gives it; `codes` are the arguments the spec gives a model (R7); the other
three fields are the model's own (assumptions 1 to 3). -/
structure State where
  /-- the parameters `CMD_*`, `TYPE_CODE` and `ST_*` of this machine (R7): constants, which no step changes
  (assumption 4) -/
  codes : Codes
  /-- `CRC`, the running checksum (R20): the block's only register -/
  crc : Byte
  /-- the model's own: whether the first reset has happened (R140) -/
  phase : Phase
  /-- the model's own: what the client and the environment will apply to the port, the next one first (R44) -/
  inbox : List Arrival
  /-- the model's own: the results the client has received, the latest first, in storage the client owns (R26) -/
  results : List Result
deriving DecidableEq, Repr

/-- The machine stops with a fault: never. "Faults, stuck states and hangs: none" (60_exceptions.md R129), so there
is no constructor, and no step can end in one. -/
inductive Fault where
deriving DecidableEq, Repr

/-- A request the interface does not accept: no step, no result, no change of state (R128). Every one is safe: nothing
can be proved of a run that contains it. -/
inductive Refusal where
  /-- raised by an arm of `exec` for an instruction without a meaning: no arm is of that kind; safe -/
  | notModelled (mnemonic : String)
  /-- raised at the port: the command byte is unassigned (R59, R128); safe -/
  | unassignedCommand (cmd : Byte)
  /-- raised at the port, and by `DECODE` and the frames: a buffer of `n` bytes, more than `RX_MAX` (R41, R128); safe -/
  | rawTooLong (n : Nat)
  /-- raised at the port: a request issued before the first reset (R128, R140); safe -/
  | beforeFirstReset
  /-- raised at the port: fewer bytes than the request announces (assumption 6); safe -/
  | incompleteRequest
  /-- raised at the port: more bytes than the request announces (assumption 6); safe -/
  | overlongRequest
deriving DecidableEq, Repr

/-- What the port has for the block at the start of a step. -/
inductive Fetched where
  /-- nothing has arrived -/
  | idle
  /-- a reset was applied; `t` is the state after it -/
  | reset (t : State)
  /-- an operation was accepted; `t` is the state with it taken off the port -/
  | run (i : Instr) (t : State)
  /-- the interface does not accept what arrived -/
  | refuse (r : Refusal)
deriving DecidableEq, Repr

/-- The machine with the default parameters right after reset: `CRC` = 0x00 (R21, R140), the first reset has happened,
nothing has arrived and nothing has been delivered. -/
def State.reset : State :=
  { codes := Config.codes, crc := 0x00#8, phase := .running, inbox := [], results := [] }

end Sys2Proof.Machine
end

