-- ==== Sys2Proof/Machine/Ops.lean ====
section
/-! DEFINITION. The shared operations: reading and writing the register, delivering a result, ending an operation with
an error (the block's "trap entry", 60_exceptions.md R123), and reset. There is no operation over memory because there
is no memory (10_state.md R29). -/

namespace Sys2Proof.Machine

/-- Read `CRC` (R20). -/
def readCrc (s : State) : Byte := s.crc

/-- `CRC <- v` (R20): all eight bits are one field and every value is legal. -/
def writeCrc (v : Byte) (s : State) : State := { s with crc := v }

/-- `return V`: hand a result to the client, as a fresh copy in storage the client owns (10_state.md R26,
20_memory.md R42). The block keeps nothing of it. -/
def deliver (r : Result) (s : State) : State := { s with results := r :: s.results }

/-- `raise E` (R123), the one way an operation fails: the operation ends with the result `E` and nothing else. The
register is not changed, nothing is latched, nothing partial is delivered, and control goes nowhere. There is nothing
to return from and nothing to restore (R125), so no operation undoes this one. -/
def raiseError (e : ErrorKind) (s : State) : State := deliver (.error e) s

/-- How an operation of the codec ends (R123): `return V` delivers its value, `raise E` delivers the error. Either way the
operation completes. -/
def conclude (outcome : Except ErrorKind Result) (s : State) : State :=
  match outcome with
  | .ok v => deliver v s
  | .error e => raiseError e s

/-- The error kind of an encoder error (R120). -/
def EncodeError.kind : EncodeError → ErrorKind
  | .payloadTooLarge => .payloadTooLarge

/-- The error kind of a decoder error (R120). -/
def DecodeError.kind : DecodeError → ErrorKind
  | .truncated => .truncated
  | .checksumMismatch => .checksumMismatch

/-- Reset (R140): "Its whole effect is `CRC <- 0x00`". From then on the interface accepts requests (R128). What the
client has sent and received is the client's and stays. -/
def applyReset (s : State) : State := { writeCrc Config.crcInit s with phase := .running }

end Sys2Proof.Machine
end

