-- ==== Sys2Proof/Machine/Operands.lean ====
section
/-! DEFINITION. The operand forms: a byte, a byte sequence read by offset (00_scope.md R10, R11; 20_memory.md R31,
R38 to R40), and the four header bytes. An access outside a sequence cannot be written down: every read carries the
proof that it is in bounds, which is R40's discipline. -/

namespace Sys2Proof.Machine

/-- `B[a]`, the byte at offset `a`; defined only inside the sequence (R11, R40). -/
def byteAt (B : Bytes) (a : Nat) (h : a < B.length) : Byte := B[a]

/-- `MemRead(B, a, n)`, the subsequence `B[a..a+n)`; "defined only when `a + n <= |B|`" (R11). -/
def memRead (B : Bytes) (a n : Nat) (_ : a + n ≤ B.length) : Bytes := (B.drop a).take n

/-- The four header bytes, in their fixed order (R32). -/
def header (dev ty reg len : Byte) : Bytes := [dev, ty, reg, len]

end Sys2Proof.Machine
end

