-- ==== Sys2Proof/Machine/Flags.lean ====
section
/-! DEFINITION. The block has no flags, condition codes or status registers (10_state.md R24), so no operation computes
one. What stands in their place is the kind of the result itself and its numeric code `ST_*` (60_exceptions.md R121),
which is a function of the result and is stored nowhere. -/

namespace Sys2Proof.Machine

/-- The kind of a result that R121 gives a code to: `ST_OK` is "any success result". -/
def Result.kind : Result → ResultKind
  | .ok => .ok
  | .byte _ => .ok
  | .frame _ => .ok
  | .packet _ => .ok
  | .error .payloadTooLarge => .payloadTooLarge
  | .error .truncated => .truncated
  | .error .checksumMismatch => .checksumMismatch

/-- The numeric code of a result (R121), for any parameters. -/
def Result.statusWith (k : Codes) (r : Result) : Byte := k.status r.kind

/-- The numeric code of a result with the default codes. -/
def Result.status (r : Result) : Byte := r.statusWith Config.codes

/-- The numeric code that a machine gives a result: its own `ST_*`. -/
def statusOf (s : State) (r : Result) : Byte := r.statusWith s.codes

end Sys2Proof.Machine
end

