-- ==== Sys2Proof/Machine/Encoder.lean ====
section
/-! DEFINITION. The encoder (41_encoder.md): the pure function `encode` (R90) and the operation `ENCODE` (R96). -/

namespace Sys2Proof.Machine

/-- The `LEN` field (R91): the payload's length when there is a payload, else the requested length. -/
def lenField (reqLen : Byte) (payload : Bytes) : Byte :=
  if 0 < payload.length then BitVec.ofNat 8 payload.length else reqLen

/-- The size check of R93: (a) a payload of more than 128 bytes, or (b) no payload and a requested length above 128. -/
def tooLarge (reqLen : Byte) (payload : Bytes) : Bool :=
  decide (Config.maxPayload < payload.length) ||
    (decide (payload.length = 0) && decide (Config.maxPayload < reqLen.toNat))

/-- `encode(dev, type, reg, req_len, payload)` (R90): the size check first, then header, payload and checksum; the
checksum is continued from the header's over the payload (R94). The type is data (R92). -/
def encodeFrame (dev ty reg reqLen : Byte) (payload : Bytes) : Except EncodeError Bytes :=
  if tooLarge reqLen payload then .error .payloadTooLarge
  else
    let hdr := header dev ty reg (lenField reqLen payload)
    .ok (hdr ++ payload ++ [crc8Update (crc8 hdr) payload])

/-- `ENCODE` (R96): `return encode(...)`. No state is read, and only the result is handed over. -/
def execEncode (dev ty reg reqLen : Byte) (payload : Bytes) (s : State) : Host.Outcome State Fault Refusal :=
  .next (conclude (((encodeFrame dev ty reg reqLen payload).map Result.frame).mapError EncodeError.kind) s)

end Sys2Proof.Machine
end

