-- ==== Sys2Proof/Machine/Decoder.lean ====
section
/-! DEFINITION. The decoder (42_decoder.md): the pure function `decode` (R100) with its three checks in the order of
R110, and the operation `DECODE` (R112). -/

namespace Sys2Proof.Machine

/-- `decode(raw)` (R100): short buffer (R101), checksum (R102), declared length (R103), then the packet (R111). Every
read carries its bound (20_memory.md R40), so `LEN` is used to cut the payload only after it has been checked. -/
def decodePacket (raw : Bytes) : Except DecodeError Packet :=
  if hn : raw.length < 5 then .error .truncated
  else if byteAt raw (raw.length - 1) (by omega) ≠ crc8 (memRead raw 0 (raw.length - 1) (by omega)) then
    .error .checksumMismatch
  else if hl : raw.length - 5 < (byteAt raw 3 (by omega)).toNat then .error .truncated
  else
    .ok
      { dev := byteAt raw 0 (by omega)
        type := byteAt raw 1 (by omega)
        reg := byteAt raw 2 (by omega)
        len := byteAt raw 3 (by omega)
        payload := memRead raw 4 (byteAt raw 3 (by omega)).toNat (by omega) }

/-- The decoder applied to a buffer the client presents. More than `RX_MAX` bytes cannot be presented: refused, not an
error (20_memory.md R41, 60_exceptions.md R128). Else `return decode(raw)`: no state is read, and only the result is
handed over (R112). -/
def runDecode (raw : Bytes) (s : State) : Host.Outcome State Fault Refusal :=
  if Config.rxMax < raw.length then .refused (.rawTooLong raw.length)
  else .next (conclude (((decodePacket raw).map Result.packet).mapError DecodeError.kind) s)

/-- `DECODE raw` (R112). -/
def execDecode (raw : Bytes) (s : State) : Host.Outcome State Fault Refusal := runDecode raw s

end Sys2Proof.Machine
end

