-- ==== Sys2Proof/Machine/Frames.lean ====
section
/-! DEFINITION. The ten packet types (30_encoding.md R55). "The codec gives a packet type no semantics of its own"
(R65, R62): the one thing the block does with a frame that is handed to it is to decode it (00_scope.md R6 (b)), so the
meaning of each row is the decoder applied to the frame's bytes (assumption 7, DEDUCED). -/

namespace Sys2Proof.Machine

/-- A frame of type `t` handed to the block: the decoder's answer to its bytes, whose type byte is this machine's
`TYPE_CODE` of `t` (R55). That byte is returned in the packet unchanged and decides nothing (R53, R62). -/
def receiveFrame (t : PacketType) (f : FrameFields) (s : State) : Host.Outcome State Fault Refusal :=
  runDecode (f.bytes (s.codes.type t)) s

/-- A frame of type `SET` (table for R55). -/
def execSet (f : FrameFields) (s : State) : Host.Outcome State Fault Refusal :=
  receiveFrame .set f s

/-- A frame of type `GET` (table for R55). -/
def execGet (f : FrameFields) (s : State) : Host.Outcome State Fault Refusal :=
  receiveFrame .get f s

/-- A frame of type `SUCCESS` (table for R55). -/
def execSuccess (f : FrameFields) (s : State) : Host.Outcome State Fault Refusal :=
  receiveFrame .success f s

/-- A frame of type `FAILURE_UNKNOWN_REGISTER` (table for R55). -/
def execFailureUnknownRegister (f : FrameFields) (s : State) : Host.Outcome State Fault Refusal :=
  receiveFrame .failureUnknownRegister f s

/-- A frame of type `FAILURE_BAD_LENGTH` (table for R55). -/
def execFailureBadLength (f : FrameFields) (s : State) : Host.Outcome State Fault Refusal :=
  receiveFrame .failureBadLength f s

/-- A frame of type `FAILURE_NOT_SUPPORTED` (table for R55). -/
def execFailureNotSupported (f : FrameFields) (s : State) : Host.Outcome State Fault Refusal :=
  receiveFrame .failureNotSupported f s

/-- A frame of type `FAILURE_BAD_PASSWORD` (table for R55). -/
def execFailureBadPassword (f : FrameFields) (s : State) : Host.Outcome State Fault Refusal :=
  receiveFrame .failureBadPassword f s

/-- A frame of type `FAILURE_BAD_SIGNATURE` (table for R55). -/
def execFailureBadSignature (f : FrameFields) (s : State) : Host.Outcome State Fault Refusal :=
  receiveFrame .failureBadSignature f s

/-- A frame of type `FAILURE_HAL_ERROR` (table for R55). -/
def execFailureHalError (f : FrameFields) (s : State) : Host.Outcome State Fault Refusal :=
  receiveFrame .failureHalError f s

/-- A frame of type `FAILURE_BAD_PARAMETER` (table for R55). -/
def execFailureBadParameter (f : FrameFields) (s : State) : Host.Outcome State Fault Refusal :=
  receiveFrame .failureBadParameter f s

end Sys2Proof.Machine
end

