-- ==== Sys2Proof/Machine/Dispatch.lean ====
section
/-! DEFINITION. The dispatch: one arm per constructor of `Instr`, each a direct call of that operation's meaning. -/

namespace Sys2Proof.Machine

/-- The effect of one accepted operation. -/
def exec (i : Instr) (s : State) : Host.Outcome State Fault Refusal :=
  match i with
  | .crcClr => Sys2Proof.Machine.execCrcClr s
  | .crcLoad v => Sys2Proof.Machine.execCrcLoad v s
  | .crcByte b => Sys2Proof.Machine.execCrcByte b s
  | .crcRead => Sys2Proof.Machine.execCrcRead s
  | .encode dev ty reg reqLen payload => Sys2Proof.Machine.execEncode dev ty reg reqLen payload s
  | .decode raw => Sys2Proof.Machine.execDecode raw s
  | .set f => Sys2Proof.Machine.execSet f s
  | .get f => Sys2Proof.Machine.execGet f s
  | .success f => Sys2Proof.Machine.execSuccess f s
  | .failureUnknownRegister f => Sys2Proof.Machine.execFailureUnknownRegister f s
  | .failureBadLength f => Sys2Proof.Machine.execFailureBadLength f s
  | .failureNotSupported f => Sys2Proof.Machine.execFailureNotSupported f s
  | .failureBadPassword f => Sys2Proof.Machine.execFailureBadPassword f s
  | .failureBadSignature f => Sys2Proof.Machine.execFailureBadSignature f s
  | .failureHalError f => Sys2Proof.Machine.execFailureHalError f s
  | .failureBadParameter f => Sys2Proof.Machine.execFailureBadParameter f s

end Sys2Proof.Machine
end

