-- ==== Sys2Proof/Machine/Port.lean ====
section
/-! DEFINITION. The operation port: what the block finds there at the start of a step (20_memory.md R44: one operation
at a time, in issue order), what the interface refuses (60_exceptions.md R128), and reset between operations (R140). -/

namespace Sys2Proof.Machine

/-- The refusal that a rejected request gets. -/
def refusalOf : RequestReject → Refusal
  | .unassignedCommand cmd => .unassignedCommand cmd
  | .rawTooLong n => .rawTooLong n
  | .incomplete => .incompleteRequest
  | .overlong => .overlongRequest

/-- What a request is: an operation of the abstract form as it stands, or what the decoder reads from bytes with the
machine's parameters (R58, R59, R55). -/
def readArrival (k : Codes) : Arrival → Except RequestReject (Option Instr)
  | .reset => .ok none
  | .words w => (decodeWith k w).map some
  | .operation i => .ok (some i)

/-- Take the next arrival off the port. A reset is applied in any phase; a request is refused before the first reset
(R128, R140), refused when it is no operation, and otherwise accepted. -/
def fetch (s : State) : Fetched :=
  match s.inbox with
  | [] => .idle
  | a :: rest =>
    match readArrival s.codes a with
    | .ok none => .reset (applyReset { s with inbox := rest })
    | .ok (some i) =>
      if s.phase = .running then .run i { s with inbox := rest } else .refuse .beforeFirstReset
    | .error r => if s.phase = .running then .refuse (refusalOf r) else .refuse .beforeFirstReset

/-- The state in which `w`, written with the default codes, is what the block finds next: in front of whatever else is
waiting, with the interface accepting requests and the parameters at the defaults. -/
def present (w : Words) (s : State) : State :=
  { s with codes := Config.codes, phase := .running, inbox := .words w :: s.inbox }

end Sys2Proof.Machine
end

