-- ==== Sys2Proof/Machine/Step.lean ====
section
/-! DEFINITION. One step of the machine: a reset, or one operation from issue to result (10_state.md R26), or nothing
when nothing has arrived. -/

namespace Sys2Proof.Machine

/-- One step. With nothing at the port the block does nothing (assumption 2). -/
def step (s : State) : Host.Outcome State Fault Refusal :=
  match fetch s with
  | .idle => .next s
  | .reset t => .next t
  | .run i t => exec i t
  | .refuse r => .refused r

/-- `s` with a table row's word at the port, so that the next step runs exactly it. -/
def State.withFetchWord (s : State) (nbits w : Nat) : State := present (tableWords nbits w) s

end Sys2Proof.Machine
end

