-- ==== Sys2Proof/Machine/Streaming.lean ====
section
/-! DEFINITION. The streaming realisations that 41_encoder.md R98 and 42_decoder.md R114 allow and call unobservable.
The machine does not use them (`ENCODE` and `DECODE` are one atomic step); they are here so that it can be stated that
they compute the same results. -/

namespace Sys2Proof.Machine

/-- What a streaming encoder holds (R98): the bytes emitted so far and a private running checksum. -/
structure Sender where
  out : Bytes
  crc : Byte
deriving DecidableEq, Repr

/-- Emit one byte while absorbing it. -/
def Sender.emit (t : Sender) (b : Byte) : Sender := { out := t.out ++ [b], crc := crc8Step t.crc b }

/-- The streaming encoder (R98): the size check before the first byte, then header and payload byte by byte, then the
running checksum itself. -/
def streamEncode (dev ty reg reqLen : Byte) (payload : Bytes) : Except EncodeError Bytes :=
  if tooLarge reqLen payload then .error .payloadTooLarge
  else
    let t := (header dev ty reg (lenField reqLen payload) ++ payload).foldl Sender.emit ⟨[], Config.crcInit⟩
    .ok (t.out ++ [t.crc])

/-- What a streaming decoder holds (R114): the bytes received so far and a private running checksum over all of them. -/
structure Receiver where
  held : Bytes
  crc : Byte
deriving DecidableEq, Repr

/-- Absorb one received byte. -/
def Receiver.absorb (t : Receiver) (b : Byte) : Receiver := { held := t.held ++ [b], crc := crc8Step t.crc b }

/-- The tests of R114 when the buffer is complete: the number of bytes, the residue of the whole buffer (40_crc.md
R78), the declared length. -/
def Receiver.complete (t : Receiver) : Except DecodeError Packet :=
  match t.held with
  | dev :: ty :: reg :: len :: last :: rest =>
    if t.crc ≠ 0x00#8 then .error .checksumMismatch
    else if rest.length < len.toNat then .error .truncated
    else .ok { dev := dev, type := ty, reg := reg, len := len, payload := (last :: rest).take len.toNat }
  | _ => .error .truncated

/-- The streaming decoder (R114). -/
def streamDecode (raw : Bytes) : Except DecodeError Packet :=
  (raw.foldl Receiver.absorb ⟨[], Config.crcInit⟩).complete

end Sys2Proof.Machine
end

