-- ==== Sys2Proof/Machine/Pseudo.lean ====
section
/-! DEFINITION. The four pseudo-operations (30_encoding.md R63) and the effect of a sequence of operations
(20_memory.md R44). -/

namespace Sys2Proof.Machine

/-- The expansion of a pseudo-operation (list for R63). -/
def expand : Pseudo → List Instr
  | .crcSum B => .crcClr :: (B.map .crcByte ++ [.crcRead])
  | .crcUpdate c B => .crcLoad c :: (B.map .crcByte ++ [.crcRead])
  | .encodeData dev ty reg payload => [.encode dev ty reg 0x00#8 payload]
  | .encodeReq dev ty reg n => [.encode dev ty reg n []]

/-- A sequence of operations issued one at a time, each seeing the state the one before it left (R44); it ends at the
first that is refused. -/
def issue : List Instr → State → Host.Outcome State Fault Refusal
  | [], s => .next s
  | i :: rest, s =>
    match exec i s with
    | .next t => issue rest t
    | .fault f => .fault f
    | .refused r => .refused r

end Sys2Proof.Machine
end

