-- ==== Sys2Proof/Safety.lean ====
section
/-! DEFINITION. The terms claims are stated in: which operations the interface accepts and what each can answer
(60_exceptions.md R122, R128), what a well-formed result is (10_state.md R28), the invariant of a safe run, and which
bytes a sequence of operations feeds to the checksum. -/

namespace Sys2Proof.Machine

/-- The operations the interface accepts (R128): all but a `DECODE`, or a frame, of more than `RX_MAX` bytes. -/
def presentable : Instr → Bool
  | .crcClr => true
  | .crcLoad _ => true
  | .crcByte _ => true
  | .crcRead => true
  | .encode _ _ _ _ _ => true
  | .decode raw => decide (raw.length ≤ Config.rxMax)
  | .set f => f.wellFormed
  | .get f => f.wellFormed
  | .success f => f.wellFormed
  | .failureUnknownRegister f => f.wellFormed
  | .failureBadLength f => f.wellFormed
  | .failureNotSupported f => f.wellFormed
  | .failureBadPassword f => f.wellFormed
  | .failureBadSignature f => f.wellFormed
  | .failureHalError f => f.wellFormed
  | .failureBadParameter f => f.wellFormed

/-- The operations of the codec: everything but the four CRC operations. -/
def isCodec : Instr → Bool
  | .crcClr => false
  | .crcLoad _ => false
  | .crcByte _ => false
  | .crcRead => false
  | .encode _ _ _ _ _ => true
  | .decode _ => true
  | .set _ => true
  | .get _ => true
  | .success _ => true
  | .failureUnknownRegister _ => true
  | .failureBadLength _ => true
  | .failureNotSupported _ => true
  | .failureBadPassword _ => true
  | .failureBadSignature _ => true
  | .failureHalError _ => true
  | .failureBadParameter _ => true

/-- What the decoder can answer (R122). -/
def decodeAnswer : Result → Bool
  | .ok => false
  | .byte _ => false
  | .frame _ => false
  | .packet _ => true
  | .error .payloadTooLarge => false
  | .error .truncated => true
  | .error .checksumMismatch => true

/-- What the encoder can answer (R122). -/
def encodeAnswer : Result → Bool
  | .ok => false
  | .byte _ => false
  | .frame _ => true
  | .packet _ => false
  | .error .payloadTooLarge => true
  | .error .truncated => false
  | .error .checksumMismatch => false

/-- "Which operation can end how" (R122). -/
def canAnswer : Instr → Result → Bool
  | .crcClr, r => r == .ok
  | .crcLoad _, r => r == .ok
  | .crcByte _, r => r == .ok
  | .crcRead, .byte _ => true
  | .crcRead, _ => false
  | .encode _ _ _ _ _, r => encodeAnswer r
  | .decode _, r => decodeAnswer r
  | .set _, r => decodeAnswer r
  | .get _, r => decodeAnswer r
  | .success _, r => decodeAnswer r
  | .failureUnknownRegister _, r => decodeAnswer r
  | .failureBadLength _, r => decodeAnswer r
  | .failureNotSupported _, r => decodeAnswer r
  | .failureBadPassword _, r => decodeAnswer r
  | .failureBadSignature _, r => decodeAnswer r
  | .failureHalError _, r => decodeAnswer r
  | .failureBadParameter _, r => decodeAnswer r

/-- A well-formed result (table for R28, R95, R111): a frame is 5 to 133 bytes, declares at most 128 and has residue
0x00 (40_crc.md R78); a packet's payload has the declared length, at most 128. -/
def Result.wf : Result → Bool
  | .ok => true
  | .byte _ => true
  | .frame F =>
    decide (Config.minFrame ≤ F.length) && decide (F.length ≤ Config.maxFrame) &&
      ((F[3]?).any fun len => decide (len.toNat ≤ Config.maxPayload)) && crc8 F == 0x00#8
  | .packet p => decide (p.payload.length = p.len.toNat) && decide (p.len.toNat ≤ Config.maxPayload)
  | .error _ => true

/-- The invariant of a safe run: the machine's parameters are legal (R55, R59), the run started with a reset, and every
result delivered is well formed. -/
def State.Inv (s : State) : Prop := s.codes.legal = true ∧ s.phase = .running ∧ ∀ r ∈ s.results, r.wf = true

/-- A frame of type byte `ty` that passes the decoder's three checks (R101 to R103). -/
def frameChecks (ty : Byte) (f : FrameFields) : Prop :=
  f.body.length ≤ Config.maxPayload ∧ f.crc = crc8 ([f.dev, ty, f.reg, f.len] ++ f.body) ∧
    f.len.toNat ≤ f.body.length

/-- The packet such a frame decodes to (R111): the payload is the first `LEN` bytes of the body (R33). -/
def framePacket (ty : Byte) (f : FrameFields) : Packet :=
  { dev := f.dev, type := ty, reg := f.reg, len := f.len, payload := f.body.take f.len.toNat }

/-- The bytes a sequence of operations feeds to the register: the operands of its `CRC.BYTE` operations (R83). -/
def absorbed : List Instr → Bytes
  | [] => []
  | .crcByte b :: rest => b :: absorbed rest
  | _ :: rest => absorbed rest

/-- The operations that leave a checksum in progress in progress (R83, R84, 70_reset_and_hazards.md R145): `CRC.BYTE`,
`CRC.READ` and the codec's. -/
def continuesChecksum : Instr → Bool
  | .crcByte _ => true
  | .crcRead => true
  | i => isCodec i

/-- The source's testable properties (00_scope.md R15), as it words them of the block (95_test_vectors.md V-S01 to V-S05),
over the operations of the machine. Each is restated as a rule where it belongs; that rule is named with it. -/
structure TestableProperties : Prop where
  /-- V-S01, 40_crc.md R74: "checksum associativity over concatenation" -/
  checksumComposes : ∀ A B : Bytes, crc8Update (crc8 A) B = crc8 (A ++ B)
  /-- V-S02, 42_decoder.md R107: "encode/decode round trip", with the four-operand `encode` -/
  roundTrips : ∀ (dev ty reg : Byte) (payload : Bytes) (s : State), payload.length ≤ Config.maxPayload →
    ∃ F, exec (.encode dev ty reg 0x00#8 payload) s = .next (deliver (.frame F) s) ∧
      exec (.decode F) s =
        .next (deliver (.packet ⟨dev, ty, reg, BitVec.ofNat 8 payload.length, payload⟩) s)
  /-- V-S03, 41_encoder.md R93: "`PayloadTooLarge` above 128" -/
  tooLargeFails : ∀ (dev ty reg reqLen : Byte) (payload : Bytes) (s : State), Config.maxPayload < payload.length →
    exec (.encode dev ty reg reqLen payload) s = .next (raiseError .payloadTooLarge s)
  /-- V-S04, 42_decoder.md R108: "`ChecksumMismatch` on any single-byte corruption" -/
  corruptionDetected : ∀ (dev ty reg reqLen : Byte) (payload F : Bytes) (i : Nat) (b : Byte) (s : State),
    exec (.encode dev ty reg reqLen payload) s = .next (deliver (.frame F) s) → i < F.length → F[i]? ≠ some b →
      exec (.decode (F.set i b)) s = .next (raiseError .checksumMismatch s)
  /-- V-S05 first half, 42_decoder.md R101: "`Truncated` on short buffers" -/
  shortTruncated : ∀ (raw : Bytes) (s : State), raw.length < Config.hdrSize + 1 →
    exec (.decode raw) s = .next (raiseError .truncated s)
  /-- V-S05 second half, 42_decoder.md R103: "and on declared lengths past the buffer", of buffers whose checksum
  matches (90_conflicts.md C8) -/
  unfittingTruncated : ∀ (raw : Bytes) (len : Byte) (s : State), Config.minFrame ≤ raw.length →
    raw.length ≤ Config.rxMax → crc8 raw = 0x00#8 → raw[3]? = some len → raw.length - Config.minFrame < len.toNat →
      exec (.decode raw) s = .next (raiseError .truncated s)

/-- The state an outcome goes on in. -/
def nextState? : Host.Outcome State Fault Refusal → Option State
  | .next t => some t
  | .fault _ => none
  | .refused _ => none

/-- The refusal an outcome stops with. -/
def refusal? : Host.Outcome State Fault Refusal → Option Refusal
  | .next _ => none
  | .fault _ => none
  | .refused r => some r

end Sys2Proof.Machine
end

