-- ==== Sys2Proof/Certificates/Slice0/Obligations.lean ====
section
/-! DEFINITION. The statements for the provers. Each docstring names the rule of spec/ it formalises. What an operation
delivers is read off `State.results`, the model's own field (assumption 1, DESIGN CHOICE). Rules R75 to R80, R95, R98,
R106 to R109, R114, R115, R122, R125, R129, R141 and R146 are the spec's own derivations from other rules of it. -/

open Sys2Proof Sys2Proof.Machine

/-! ### The checksum functions (40_crc.md) -/

/-- R72 (R70 and R72 are general knowledge, assumption 12): the algorithm of R70 is the checksum of the source's five
parameters in their literal form, and the reflected polynomial is the reversed one. -/
def Obligations.ChecksumAgreesWithItsLiteralForm : Prop :=
  (∀ B : Bytes, crc8 B = crc8Literal B) ∧ reverseBits 0x31#8 = 0x8C#8 ∧
    ∀ (v : Byte) (i : Nat), i < 8 → (reverseBits v).getLsbD i = v.getLsbD (7 - i)

/-- R75: a step is one look-up in the table the spec prints. -/
def Obligations.ChecksumStepIsTheTable : Prop :=
  ∀ c b : Byte, crcTable[(c ^^^ b).toNat]? = some (crc8Step c b)

/-- R74: continuing a checksum is the checksum of the concatenation. -/
def Obligations.ChecksumComposesOverConcatenation : Prop :=
  (∀ A B : Bytes, crc8Update (crc8 A) B = crc8 (A ++ B)) ∧
    ∀ (c : Byte) (A B : Bytes), crc8Update (crc8Update c A) B = crc8Update c (A ++ B)

/-- R76: linearity over exclusive-or, of a step, of a run, of the table, and the eight entries that determine it. -/
def Obligations.ChecksumIsLinear : Prop :=
  (∀ c1 c2 b1 b2 : Byte, crc8Step (c1 ^^^ c2) (b1 ^^^ b2) = crc8Step c1 b1 ^^^ crc8Step c2 b2) ∧
    (∀ (c1 c2 : Byte) (B1 B2 : Bytes), B1.length = B2.length →
      crc8Update (c1 ^^^ c2) (List.zipWith (· ^^^ ·) B1 B2) = crc8Update c1 B1 ^^^ crc8Update c2 B2) ∧
    (∀ i j : Byte, crc8Step 0x00#8 (i ^^^ j) = crc8Step 0x00#8 i ^^^ crc8Step 0x00#8 j) ∧
    [0x01#8, 0x02#8, 0x04#8, 0x08#8, 0x10#8, 0x20#8, 0x40#8, 0x80#8].map (crc8Step 0x00#8) =
      [0x5E#8, 0xBC#8, 0x61#8, 0xC2#8, 0x9D#8, 0x23#8, 0x46#8, 0x8C#8]

/-- R77: a step is one-to-one in each operand (hence the table is a permutation that fixes 0x00), and gives 0x00
exactly when the byte equals the running value. -/
def Obligations.ChecksumStepIsOneToOne : Prop :=
  Function.Bijective (crc8Step 0x00#8) ∧ crc8Step 0x00#8 0x00#8 = 0x00#8 ∧
    (∀ b c1 c2 : Byte, crc8Step c1 b = crc8Step c2 b → c1 = c2) ∧
    (∀ c b1 b2 : Byte, crc8Step c b1 = crc8Step c b2 → b1 = b2) ∧
    ∀ c b : Byte, crc8Step c b = 0x00#8 ↔ b = c

/-- R78: a sequence followed by a byte has checksum 0x00 exactly when the byte is the checksum of the sequence. -/
def Obligations.ResidueIsZeroExactlyForTheChecksum : Prop :=
  ∀ (M : Bytes) (t : Byte), crc8 (M ++ [t]) = 0x00#8 ↔ t = crc8 M

/-- R79: leading zero bytes are invisible, and an all-zero sequence has checksum 0x00. -/
def Obligations.LeadingZeroBytesAreInvisible : Prop :=
  (∀ (n : Nat) (B : Bytes), crc8 (List.replicate n 0x00#8 ++ B) = crc8 B) ∧
    ∀ n : Nat, crc8 (List.replicate n 0x00#8) = 0x00#8

/-- R80: two sequences of equal length that differ in exactly one position have different checksums. -/
def Obligations.SingleByteErrorsChangeTheChecksum : Prop :=
  ∀ (B : Bytes) (i : Nat) (b : Byte), i < B.length → B[i]? ≠ some b → crc8 (B.set i b) ≠ crc8 B

/-- R85 (general knowledge, assumption 12): the check value, with the running value after each byte. -/
def Obligations.CheckValueOfNineDigits : Prop :=
  (List.range 9).map (fun n => crc8 ([0x31#8, 0x32#8, 0x33#8, 0x34#8, 0x35#8, 0x36#8, 0x37#8, 0x38#8, 0x39#8].take
    (n + 1))) = [0xE0#8, 0xEB#8, 0x95#8, 0xF1#8, 0xAB#8, 0xEC#8, 0x77#8, 0x07#8, 0xA1#8]

/-! ### The operations of the CRC unit: what each does and what it leaves alone -/

/-- R81: `CRC.CLR` completes in every state; it clears the register and delivers `Ok`; repeating it changes the register
no more; it has the effect of a reset on the block's state; it equals `CRC.LOAD` of 0x00; and its request is the command
byte alone, under any legal codes. -/
def Obligations.CrcClrStartsANewChecksum : Prop :=
  (∀ s : State, exec .crcClr s = .next { s with crc := 0x00#8, results := .ok :: s.results }) ∧
    (∀ s t u : State, exec .crcClr s = .next t → exec .crcClr t = .next u → u.crc = t.crc) ∧
    (∀ s t : State, exec .crcClr s = .next t → t.crc = (applyReset s).crc) ∧
    (∀ s : State, exec .crcClr s = exec (.crcLoad 0x00#8) s) ∧
    ∀ k : Codes, k.legal = true → decodeRequestWith k [k.cmd .crcClr] = .ok .crcClr

/-- R82: `CRC.LOAD` completes in every state; it sets the register to its operand and delivers `Ok`; bytes absorbed
after it continue from the loaded value; loading 0x00 is `CRC.CLR`; and its request is the command byte and the operand,
under any legal codes. -/
def Obligations.CrcLoadSetsTheChecksum : Prop :=
  (∀ (v : Byte) (s : State), exec (.crcLoad v) s = .next { s with crc := v, results := .ok :: s.results }) ∧
    (∀ (v : Byte) (B : Bytes) (s : State), ∃ t, issue (.crcLoad v :: B.map .crcByte) s = .next t ∧
      t.crc = crc8Update v B) ∧
    (∀ s : State, exec (.crcLoad 0x00#8) s = exec .crcClr s) ∧
    ∀ (k : Codes) (v : Byte), k.legal = true → decodeRequestWith k [k.cmd .crcLoad, v] = .ok (.crcLoad v)

/-- R83 (operands, encoding, pseudocode and its first two corner cases): `CRC.BYTE` completes in every state; it absorbs
one byte and delivers `Ok`; absorbing the running value itself gives 0x00, and a zero byte leaves 0x00 at 0x00. -/
def Obligations.CrcByteAbsorbsOneByte : Prop :=
  (∀ (b : Byte) (s : State),
    exec (.crcByte b) s = .next { s with crc := crc8Step s.crc b, results := .ok :: s.results }) ∧
    (∀ s : State, exec (.crcByte s.crc) s = .next { s with crc := 0x00#8, results := .ok :: s.results }) ∧
    (∀ s : State, s.crc = 0x00#8 → exec (.crcByte 0x00#8) s = .next { s with results := .ok :: s.results }) ∧
    ∀ (k : Codes) (b : Byte), k.legal = true → decodeRequestWith k [k.cmd .crcByte, b] = .ok (.crcByte b)

/-- R84: `CRC.READ` completes in every state; it delivers the register as it stands and leaves it unchanged; bytes
absorbed after it continue the checksum; right after reset or `CRC.CLR` it delivers 0x00; and its request is the command
byte alone, under any legal codes. -/
def Obligations.CrcReadDeliversTheChecksum : Prop :=
  (∀ s : State, exec .crcRead s = .next { s with results := .byte s.crc :: s.results }) ∧
    (∀ (B : Bytes) (s : State), ∃ t, issue (.crcRead :: B.map .crcByte) s = .next t ∧ t.crc = crc8Update s.crc B) ∧
    (∃ t, exec .crcRead State.reset = .next t ∧ t.results = [.byte 0x00#8]) ∧
    (∀ s : State, ∃ t, issue [.crcClr, .crcRead] s = .next t ∧ t.results = .byte 0x00#8 :: .ok :: s.results) ∧
    ∀ k : Codes, k.legal = true → decodeRequestWith k [k.cmd .crcRead] = .ok .crcRead

/-- R83 (last corner case), R145: from `CRC` = c, a run of `CRC.BYTE` operations with any `CRC.READ`, `ENCODE`, `DECODE`
and frame operations in between leaves `crc8_update(c, B)` for the bytes `B` in issue order. -/
def Obligations.InterleavedRunLeavesTheUpdatedChecksum : Prop :=
  ∀ (ops : List Instr) (s : State), (∀ i ∈ ops, continuesChecksum i = true ∧ presentable i = true) →
    ∃ t, issue ops s = .next t ∧ t.crc = crc8Update s.crc (absorbed ops)

/-- R63: the pseudo-operations compute the source's functions: `CRC.SUM B` delivers and leaves `crc8(B)`, `CRC.UPDATE c, B`
delivers and leaves `crc8_update(c, B)`, and the two `ENCODE` shorthands are `ENCODE` with a fixed operand. -/
def Obligations.PseudoOperationsComputeTheSourceFunctions : Prop :=
  (∀ (B : Bytes) (s : State), ∃ t, issue (expand (.crcSum B)) s = .next t ∧ t.crc = crc8 B ∧
      t.results.head? = some (.byte (crc8 B))) ∧
    (∀ (c : Byte) (B : Bytes) (s : State), ∃ t, issue (expand (.crcUpdate c B)) s = .next t ∧
      t.crc = crc8Update c B ∧ t.results.head? = some (.byte (crc8Update c B))) ∧
    (∀ (dev ty reg : Byte) (payload : Bytes) (s : State),
      issue (expand (.encodeData dev ty reg payload)) s = exec (.encode dev ty reg 0x00#8 payload) s) ∧
    ∀ (dev ty reg n : Byte) (s : State), issue (expand (.encodeReq dev ty reg n)) s = exec (.encode dev ty reg n []) s

/-- R146: a checksum saved with `CRC.READ` and restored with `CRC.LOAD` is what it would have been uninterrupted,
whatever was issued in between. -/
def Obligations.SavedAndRestoredChecksumIsUninterrupted : Prop :=
  ∀ (A B : Bytes) (between : List Instr) (v : Byte) (s t u : State),
    issue (expand (.crcSum A)) s = .next t → t.results.head? = some (.byte v) → issue between t = .next u →
      ∃ w, issue (expand (.crcUpdate v B)) u = .next w ∧ w.crc = crc8 (A ++ B) ∧
        w.results.head? = some (.byte (crc8 (A ++ B)))

/-! ### The encoder (41_encoder.md) -/

/-- R90, R91, R94: `ENCODE` completes whenever the size check passes. The frame is the header with `LEN` = the payload's
length, or `req_len` when there is no payload, then the payload, then the checksum of all of that. Nothing else
changes. -/
def Obligations.EncodeBuildsTheFrame : Prop :=
  ∀ (dev ty reg reqLen : Byte) (payload : Bytes) (s : State),
    payload.length ≤ 128 → (payload = [] → reqLen.toNat ≤ 128) →
      ∃ len : Byte, (payload ≠ [] → len.toNat = payload.length) ∧ (payload = [] → len = reqLen) ∧
        exec (.encode dev ty reg reqLen payload) s =
          .next { s with results := .frame ([dev, ty, reg, len] ++ payload ++ [crc8 ([dev, ty, reg, len] ++ payload)])
            :: s.results }

/-- R93: `ENCODE` answers `PayloadTooLarge` exactly when the payload has more than 128 bytes, or is empty with a requested
length above 128 (the spec's decision D8); there is no other way for it to fail; nothing else changes. -/
def Obligations.EncodeFailsExactlyWhenTooLarge : Prop :=
  ∀ (dev ty reg reqLen : Byte) (payload : Bytes) (s : State),
    (128 < payload.length ∨ (payload = [] ∧ 128 < reqLen.toNat) →
      exec (.encode dev ty reg reqLen payload) s =
        .next { s with results := .error .payloadTooLarge :: s.results }) ∧
    (¬(128 < payload.length ∨ (payload = [] ∧ 128 < reqLen.toNat)) →
      ∃ F, exec (.encode dev ty reg reqLen payload) s = .next { s with results := .frame F :: s.results })

/-- R95: two successful calls give the same frame exactly when they agree in the header operands, the payload and, for
an empty payload, the requested length. -/
def Obligations.EqualFramesHaveEqualOperands : Prop :=
  ∀ (d1 t1 r1 q1 d2 t2 r2 q2 : Byte) (P1 P2 F1 F2 : Bytes),
    encodeFrame d1 t1 r1 q1 P1 = .ok F1 → encodeFrame d2 t2 r2 q2 P2 = .ok F2 →
      (F1 = F2 ↔ d1 = d2 ∧ t1 = t2 ∧ r1 = r2 ∧ P1 = P2 ∧ (P1 = [] → q1 = q2))

/-- R98: the streaming encoder that absorbs while it emits gives the same answer. -/
def Obligations.StreamingEncoderGivesTheSameFrame : Prop :=
  ∀ (dev ty reg reqLen : Byte) (payload : Bytes),
    streamEncode dev ty reg reqLen payload = encodeFrame dev ty reg reqLen payload

/-! ### The decoder (42_decoder.md) -/

/-- R111, R33: `DECODE` completes with a packet on every buffer of at most 133 bytes made of a header, the payload it
declares, any excess bytes, and the checksum of all of that. The excess is dropped. Nothing else changes. -/
def Obligations.DecodeDeliversThePacket : Prop :=
  ∀ (dev ty reg len : Byte) (payload excess : Bytes) (s : State),
    payload.length = len.toNat → 5 + payload.length + excess.length ≤ 133 →
      exec (.decode ([dev, ty, reg, len] ++ payload ++ excess ++
          [crc8 ([dev, ty, reg, len] ++ payload ++ excess)])) s =
        .next { s with results := .packet ⟨dev, ty, reg, len, payload⟩ :: s.results }

/-- R111, R104: every packet delivered comes from such a buffer; its payload has the declared length, which is never
above 128. -/
def Obligations.DeliveredPacketComesFromTheBuffer : Prop :=
  ∀ (raw : Bytes) (p : Packet) (s : State),
    exec (.decode raw) s = .next { s with results := .packet p :: s.results } →
      p.payload.length = p.len.toNat ∧ p.len.toNat ≤ 128 ∧
        ∃ excess : Bytes, raw = [p.dev, p.type, p.reg, p.len] ++ p.payload ++ excess ++
          [crc8 ([p.dev, p.type, p.reg, p.len] ++ p.payload ++ excess)]

/-- R101: fewer than 5 bytes are `Truncated`, whatever they are; nothing else changes. -/
def Obligations.ShortBufferIsTruncated : Prop :=
  ∀ (raw : Bytes) (s : State), raw.length < 5 →
    exec (.decode raw) s = .next { s with results := .error .truncated :: s.results }

/-- R102: with 5 to 133 bytes, `DECODE` answers `ChecksumMismatch` exactly when the last byte is not the checksum of the
others, which is exactly when the checksum of the whole buffer is not 0x00; nothing else changes. -/
def Obligations.WrongChecksumIsReported : Prop :=
  ∀ (M : Bytes) (c : Byte) (s : State), 4 ≤ M.length → M.length ≤ 132 →
    (exec (.decode (M ++ [c])) s = .next { s with results := .error .checksumMismatch :: s.results } ↔ c ≠ crc8 M) ∧
      (c ≠ crc8 M ↔ crc8 (M ++ [c]) ≠ 0x00#8)

/-- R103: with a matching checksum, a declared length that does not fit is `Truncated`; nothing else changes. -/
def Obligations.UnfittingLengthIsTruncated : Prop :=
  ∀ (dev ty reg len : Byte) (body : Bytes) (s : State), body.length ≤ 128 → body.length < len.toNat →
    exec (.decode ([dev, ty, reg, len] ++ body ++ [crc8 ([dev, ty, reg, len] ++ body)])) s =
      .next { s with results := .error .truncated :: s.results }

/-- R110: a buffer with both a wrong checksum and an unfitting declared length is `ChecksumMismatch`, not `Truncated`. -/
def Obligations.ChecksumIsCheckedBeforeTheLength : Prop :=
  ∀ (dev ty reg len : Byte) (body : Bytes) (c : Byte) (s : State), body.length ≤ 128 → body.length < len.toNat →
    c ≠ crc8 ([dev, ty, reg, len] ++ body) →
      exec (.decode ([dev, ty, reg, len] ++ body ++ [c])) s =
        .next { s with results := .error .checksumMismatch :: s.results }

/-- R104: a declared length of 129 or more never yields a packet. -/
def Obligations.OverlongDeclaredLengthIsNeverAPacket : Prop :=
  ∀ (raw : Bytes) (len : Byte) (s : State), raw.length ≤ 133 → raw[3]? = some len → 129 ≤ len.toNat →
    exec (.decode raw) s = .next { s with results := .error .truncated :: s.results } ∨
      exec (.decode raw) s = .next { s with results := .error .checksumMismatch :: s.results }

/-- R114: the streaming decoder that keeps a running checksum of the whole buffer gives the same answer. -/
def Obligations.StreamingDecoderGivesTheSamePacket : Prop :=
  ∀ raw : Bytes, streamDecode raw = decodePacket raw

/-! ### Laws connecting the two -/

/-- R107: what `ENCODE` builds for a payload, or for nothing with no length requested, `DECODE` takes apart again; and a
buffer of exactly its declared length that decodes is what `ENCODE` builds from the packet. -/
def Obligations.EncodeThenDecodeRoundTrips : Prop :=
  (∀ (dev ty reg reqLen : Byte) (payload : Bytes) (s : State),
    payload.length ≤ 128 → (payload ≠ [] ∨ reqLen = 0x00#8) →
      ∃ F p, exec (.encode dev ty reg reqLen payload) s = .next { s with results := .frame F :: s.results } ∧
        exec (.decode F) s = .next { s with results := .packet p :: s.results } ∧
        p.dev = dev ∧ p.type = ty ∧ p.reg = reg ∧ p.len.toNat = payload.length ∧ p.payload = payload) ∧
    ∀ (raw : Bytes) (p : Packet) (s : State),
      exec (.decode raw) s = .next { s with results := .packet p :: s.results } → raw.length = 5 + p.len.toNat →
        exec (.encode p.dev p.type p.reg 0x00#8 p.payload) s = .next { s with results := .frame raw :: s.results }

/-- R106: the frame of a request for at least one byte does not decode: `Truncated`. -/
def Obligations.RequestFrameDoesNotDecode : Prop :=
  ∀ (dev ty reg reqLen : Byte) (s : State), 0 < reqLen.toNat → reqLen.toNat ≤ 128 →
    ∃ F, exec (.encode dev ty reg reqLen []) s = .next { s with results := .frame F :: s.results } ∧
      exec (.decode F) s = .next { s with results := .error .truncated :: s.results }

/-- R108: a frame that `ENCODE` built, of either shape, changed in exactly one byte decodes to `ChecksumMismatch`. -/
def Obligations.SingleByteCorruptionIsDetected : Prop :=
  ∀ (dev ty reg reqLen : Byte) (payload F : Bytes) (i : Nat) (b : Byte) (s : State),
    exec (.encode dev ty reg reqLen payload) s = .next { s with results := .frame F :: s.results } →
      i < F.length → F[i]? ≠ some b →
        exec (.decode (F.set i b)) s = .next { s with results := .error .checksumMismatch :: s.results }

/-- R109: 5 to 133 zero bytes decode to the all-zero packet with an empty payload; and zero bytes in front of a frame
do not disturb the checksum comparison. -/
def Obligations.ZeroBufferDecodesToTheZeroPacket : Prop :=
  (∀ (n : Nat) (s : State), 5 ≤ n → n ≤ 133 →
    exec (.decode (List.replicate n 0x00#8)) s =
      .next { s with results := .packet ⟨0x00#8, 0x00#8, 0x00#8, 0x00#8, []⟩ :: s.results }) ∧
    ∀ (n : Nat) (raw : Bytes) (s : State), 5 ≤ raw.length → n + raw.length ≤ 133 →
      (exec (.decode (List.replicate n 0x00#8 ++ raw)) s =
          .next { s with results := .error .checksumMismatch :: s.results } ↔
        exec (.decode raw) s = .next { s with results := .error .checksumMismatch :: s.results })

/-- R115: bytes `X` after a buffer `F` that passes the first two checks are checksummed as if they stood alone; the
whole passes exactly when `crc8(X)` = 0x00, and decodes to `F`'s packet when `F`'s declared length fits. -/
def Obligations.BytesAfterAValidFrame : Prop :=
  ∀ (F X : Bytes) (len : Byte) (s : State), 5 ≤ F.length → crc8 F = 0x00#8 → F.length + X.length ≤ 133 →
    F[3]? = some len →
      crc8 (F ++ X) = crc8 X ∧
        (crc8 X ≠ 0x00#8 →
          exec (.decode (F ++ X)) s = .next { s with results := .error .checksumMismatch :: s.results }) ∧
        (crc8 X = 0x00#8 → len.toNat ≤ F.length - 5 →
          ∃ p, exec (.decode F) s = .next { s with results := .packet p :: s.results } ∧
            exec (.decode (F ++ X)) s = .next { s with results := .packet p :: s.results })

/-- R62, R92, R105: the codec is blind to the packet type. Changing the type operand of `ENCODE` changes nothing of a frame
but its type byte and its checksum, and never whether it fails; a decoded frame changed to another type, with its
checksum recomputed, decodes to the same packet with that type. -/
def Obligations.CodecIsBlindToThePacketType : Prop :=
  (∀ (dev t1 t2 reg reqLen : Byte) (payload F1 : Bytes), encodeFrame dev t1 reg reqLen payload = .ok F1 →
    ∃ c, encodeFrame dev t2 reg reqLen payload = .ok ((F1.set 1 t2).set (F1.length - 1) c)) ∧
    (∀ (dev t1 t2 reg reqLen : Byte) (payload : Bytes) (e : EncodeError),
      encodeFrame dev t1 reg reqLen payload = .error e → encodeFrame dev t2 reg reqLen payload = .error e) ∧
    ∀ (dev t1 t2 reg len : Byte) (body : Bytes) (p : Packet),
      decodePacket ([dev, t1, reg, len] ++ body ++ [crc8 ([dev, t1, reg, len] ++ body)]) = .ok p →
        decodePacket ([dev, t2, reg, len] ++ body ++ [crc8 ([dev, t2, reg, len] ++ body)]) =
          .ok { p with type := t2 }

/-! ### Frames of the ten packet types -/

/-- R55, R62 with assumption 7 (a frame handed to the block is decoded): on a machine with any parameters, a frame of each of
the ten types, with the machine's code for the type, that passes the decoder's checks completes with the packet of its own
fields, and nothing else changes. -/
def Obligations.FramesDecodeToTheirFields : Prop :=
  ∀ (f : FrameFields) (s : State),
    (frameChecks (s.codes.type .set) f →
      exec (.set f) s =
        .next { s with results := .packet (framePacket (s.codes.type .set) f) :: s.results }) ∧
    (frameChecks (s.codes.type .get) f →
      exec (.get f) s =
        .next { s with results := .packet (framePacket (s.codes.type .get) f) :: s.results }) ∧
    (frameChecks (s.codes.type .success) f →
      exec (.success f) s =
        .next { s with results := .packet (framePacket (s.codes.type .success) f) :: s.results }) ∧
    (frameChecks (s.codes.type .failureUnknownRegister) f →
      exec (.failureUnknownRegister f) s =
        .next { s with results := .packet (framePacket (s.codes.type .failureUnknownRegister) f) :: s.results }) ∧
    (frameChecks (s.codes.type .failureBadLength) f →
      exec (.failureBadLength f) s =
        .next { s with results := .packet (framePacket (s.codes.type .failureBadLength) f) :: s.results }) ∧
    (frameChecks (s.codes.type .failureNotSupported) f →
      exec (.failureNotSupported f) s =
        .next { s with results := .packet (framePacket (s.codes.type .failureNotSupported) f) :: s.results }) ∧
    (frameChecks (s.codes.type .failureBadPassword) f →
      exec (.failureBadPassword f) s =
        .next { s with results := .packet (framePacket (s.codes.type .failureBadPassword) f) :: s.results }) ∧
    (frameChecks (s.codes.type .failureBadSignature) f →
      exec (.failureBadSignature f) s =
        .next { s with results := .packet (framePacket (s.codes.type .failureBadSignature) f) :: s.results }) ∧
    (frameChecks (s.codes.type .failureHalError) f →
      exec (.failureHalError f) s =
        .next { s with results := .packet (framePacket (s.codes.type .failureHalError) f) :: s.results }) ∧
    (frameChecks (s.codes.type .failureBadParameter) f →
      exec (.failureBadParameter f) s =
        .next { s with results := .packet (framePacket (s.codes.type .failureBadParameter) f) :: s.results })

/-- R102, R103 for the frames, with assumption 7: on a machine with any parameters, a frame of any of the ten
types whose checksum byte is wrong ends in `ChecksumMismatch`; one with a matching checksum whose declared length does
not fit ends in `Truncated`; and one of more than 133 bytes is refused. -/
def Obligations.FramesThatFailTheChecks : Prop :=
  ∀ (t : PacketType) (f : FrameFields) (s : State),
    (f.body.length ≤ 128 → f.crc ≠ crc8 ([f.dev, s.codes.type t, f.reg, f.len] ++ f.body) →
      exec (.ofFrame t f) s = .next { s with results := .error .checksumMismatch :: s.results }) ∧
    (f.body.length ≤ 128 → f.crc = crc8 ([f.dev, s.codes.type t, f.reg, f.len] ++ f.body) →
      f.body.length < f.len.toNat →
        exec (.ofFrame t f) s = .next { s with results := .error .truncated :: s.results }) ∧
    (128 < f.body.length → exec (.ofFrame t f) s = .refused (.rawTooLong (5 + f.body.length)))

/-- R6 (b) with assumptions 7 and 8: on a machine with legal parameters, handing the block a received buffer as a frame is
the same step as a `DECODE` request of that buffer, whatever the buffer is. -/
def Obligations.PresentingAFrameIsDecodingIt : Prop :=
  ∀ (raw : Bytes) (rest : List Arrival) (s : State), s.codes.legal = true → raw.length ≤ 133 →
    let request : Words := .request ([s.codes.cmd .decode, BitVec.ofNat 8 raw.length] ++ raw)
    step { s with inbox := .words (.frame raw) :: rest } = step { s with inbox := .words request :: rest }

/-! ### Whole-machine rules -/

/-- R122, R129, R123: every operation the interface accepts ends, in every state, with exactly one result, of a kind
that operation can answer, and touches nothing of the port. No step ends in a fault. -/
def Obligations.EveryAcceptedOperationAnswersOnce : Prop :=
  (∀ (i : Instr) (s : State), presentable i = true →
    ∃ c r, exec i s = .next { s with crc := c, results := r :: s.results } ∧ canAnswer i r = true) ∧
    ∀ (s : State) (f : Fault), step s ≠ .fault f

/-- R26, R145, R20: the codec is stateless: each accepted `ENCODE` and `DECODE` has one result that it delivers in every
state, and it changes nothing else; so does a frame, under the same parameters (a frame is counted to the codec because
handing one to the block decodes it, assumption 7, DEDUCED). -/
def Obligations.CodecNeitherReadsNorWritesState : Prop :=
  (∀ (dev ty reg reqLen : Byte) (payload : Bytes), ∃ r, ∀ s : State,
    exec (.encode dev ty reg reqLen payload) s = .next { s with results := r :: s.results }) ∧
    (∀ raw : Bytes, raw.length ≤ 133 → ∃ r, ∀ s : State,
      exec (.decode raw) s = .next { s with results := r :: s.results }) ∧
    ∀ (k : Codes) (t : PacketType) (f : FrameFields), f.body.length ≤ 128 → ∃ r, ∀ s : State, s.codes = k →
      exec (.ofFrame t f) s = .next { s with results := r :: s.results }

/-- R20: the register is written by `CRC.CLR`, `CRC.LOAD`, `CRC.BYTE` and reset, and by nothing else. -/
def Obligations.OnlyThreeOperationsAndResetWriteCrc : Prop :=
  (∀ (i : Instr) (s t : State), exec i s = .next t → t.crc ≠ s.crc →
    i = .crcClr ∨ (∃ v, i = .crcLoad v) ∨ ∃ b, i = .crcByte b) ∧
    ∀ s t : State, step s = .next t → t.crc ≠ s.crc →
      ∃ rest, s.inbox = .reset :: rest ∨
        ∃ i u, fetch s = .run i u ∧ (i = .crcClr ∨ (∃ v, i = .crcLoad v) ∨ ∃ b, i = .crcByte b)

/-- R123, R125: an operation that ends in an error leaves everything but the delivered result as it was, and every later
operation answers and writes exactly what it would have without it. -/
def Obligations.ErrorsLeaveNoTrace : Prop :=
  ∀ (i : Instr) (e : ErrorKind) (s t : State), exec i s = .next t → t.results = .error e :: s.results →
    t = { s with results := .error e :: s.results } ∧
      ∀ j : Instr, presentable j = true →
        ∃ c r, exec j s = .next { s with crc := c, results := r :: s.results } ∧
          exec j t = .next { t with crc := c, results := r :: t.results }

/-- R21: `CRC` is 0x00 after reset, so `CRC.BYTE` operations right after reset give the checksum of the bytes sent; and
an operation issued before the first reset has no meaning. -/
def Obligations.ResetStateStartsAChecksum : Prop :=
  State.reset.crc = 0x00#8 ∧
    (∀ B : Bytes, ∃ t, issue (B.map .crcByte ++ [.crcRead]) State.reset = .next t ∧
      t.results.head? = some (.byte (crc8 B))) ∧
    ∀ (s : State) (a : Arrival) (rest : List Arrival), s.phase = .beforeFirstReset → s.inbox = a :: rest →
      a ≠ .reset → step s = .refused .beforeFirstReset

/-- R140: a reset applied between operations clears the register; with assumptions 1 to 3, the interface accepts requests
from then on and what the client has sent and received stays. -/
def Obligations.ResetEventClearsTheRegister : Prop :=
  ∀ (s : State) (rest : List Arrival), s.inbox = .reset :: rest →
    step s = .next { s with crc := 0x00#8, phase := .running, inbox := rest }

/-- R141: reset and `CRC.CLR` leave the block in the same state: the same `CRC`, and everything else as it was but for
the result that `CRC.CLR`, an operation, delivers. -/
def Obligations.ResetAndCrcClrAreInterchangeable : Prop :=
  ∀ (s : State) (rest : List Arrival), s.phase = .running →
    ∃ t u, step { s with inbox := .reset :: rest } = .next t ∧
      step { s with inbox := .operation .crcClr :: rest } = .next u ∧ t.crc = 0x00#8 ∧
        u = { t with results := .ok :: t.results }

/-- R128, R59: the three refusals of the interface, on a machine with any parameters: an unassigned command byte; a `DECODE`
of more than 133 bytes, as a request that announces it (whatever bytes follow, assumption 6), as an operation, or as a
buffer handed over as a frame (assumptions 7 and 8); whatever is issued before the first reset (assumption 3). The
parameters stand in the state (assumption 4). -/
def Obligations.InterfaceRefusals : Prop :=
  (∀ (cmd : Byte) (operands : Bytes) (rest : List Arrival) (s : State), s.phase = .running →
    (∀ c : Command, s.codes.cmd c ≠ cmd) → s.inbox = .words (.request (cmd :: operands)) :: rest →
      step s = .refused (.unassignedCommand cmd)) ∧
    (∀ (n : Byte) (bytes : Bytes) (rest : List Arrival) (s : State), s.phase = .running → s.codes.legal = true →
      133 < n.toNat → s.inbox = .words (.request (s.codes.cmd .decode :: n :: bytes)) :: rest →
        step s = .refused (.rawTooLong n.toNat)) ∧
    (∀ (raw : Bytes) (rest : List Arrival) (s : State), s.phase = .running → 133 < raw.length →
      s.inbox = .operation (.decode raw) :: rest → step s = .refused (.rawTooLong raw.length)) ∧
    (∀ (raw : Bytes) (rest : List Arrival) (s : State), s.phase = .running → 133 < raw.length →
      s.inbox = .words (.frame raw) :: rest → step s = .refused (.rawTooLong raw.length)) ∧
    ∀ (a : Arrival) (rest : List Arrival) (s : State), s.phase = .beforeFirstReset → a ≠ .reset →
      s.inbox = a :: rest → step s = .refused .beforeFirstReset

/-- R28, R95, R111 as an invariant: in a run of a machine with legal parameters (R55, R59) that started with a reset, the
parameters stay legal, every frame ever delivered has 5 to 133 bytes, declares at most 128 and checks, and every packet's
payload has its declared length, at most 128. -/
def Obligations.StepKeepsDeliveredResultsWellFormed : Prop :=
  ∀ s t : State, s.Inv → step s = .next t → t.Inv

/-- The state right after reset meets that invariant. -/
def Obligations.ResetMeetsTheInvariant : Prop := State.reset.Inv

/-- R58, R44: a step runs the operation that the words at the port decode to with the machine's parameters, in the state
with them taken off the port; an operation given in the abstract form is run as it stands; with nothing at the port
nothing changes (the last clause is the model's choice, assumption 2). -/
def Obligations.StepRunsTheDecodedOperation : Prop :=
  (∀ (w : Words) (i : Instr) (rest : List Arrival) (s : State), s.phase = .running →
    decodeWith s.codes w = .ok i → s.inbox = .words w :: rest → step s = exec i { s with inbox := rest }) ∧
    (∀ (i : Instr) (rest : List Arrival) (s : State), s.phase = .running → s.inbox = .operation i :: rest →
      step s = exec i { s with inbox := rest }) ∧
    ∀ s : State, s.inbox = [] → step s = .next s

/-- R44: on a machine with legal parameters, operations presented as their words are executed one a step, in issue order,
each on the state the one before it left: the run of as many steps as there are operations is the composition of their
effects, and it ends (the queue at the port is the model's, assumption 2). -/
def Obligations.RunExecutesOperationsInIssueOrder : Prop :=
  ∀ (ops : List Instr) (rest : List Arrival) (s : State), s.phase = .running → s.codes.legal = true →
    (∀ i ∈ ops, i.wellFormed = true) → s.inbox = ops.map (fun i => .words (encodeWith s.codes i)) ++ rest →
      ∃ t, issue ops { s with inbox := rest } = .next t ∧ Host.Core.run Sys2Proof.core ops.length s = .next t

/-! ### Encodings (30_encoding.md) -/

/-- R58, R59, R55, R50: under any legal codes, decoding the words of a well-formed operation gives it back, with every
operand. -/
def Obligations.DecodeOfEncodeIsTheOperation : Prop :=
  ∀ (k : Codes) (i : Instr), k.legal = true → i.wellFormed = true → decodeWith k (encodeWith k i) = .ok i

/-- R58, R60: under any codes, a request that is accepted, and a frame that is classified, is the words of the well-formed
operation it decodes to: no byte is dropped. Under legal codes these are the words of no other well-formed operation, and
a frame that is not classified, whose operation is the `DECODE` of its bytes (assumption 8), is the words of none. -/
def Obligations.AcceptedWordsReencode : Prop :=
  (∀ (k : Codes) (bytes : Bytes) (i : Instr), decodeRequestWith k bytes = .ok i →
    i.wellFormed = true ∧ encodeWith k i = .request bytes ∧
      (k.legal = true → ∀ j : Instr, j.wellFormed = true → encodeWith k j = .request bytes → j = i)) ∧
    (∀ (k : Codes) (raw : Bytes) (t : PacketType) (f : FrameFields), decodeFrameWith k raw = .ok (.ofFrame t f) →
      f.wellFormed = true ∧ encodeWith k (.ofFrame t f) = .frame raw ∧
        (k.legal = true → ∀ j : Instr, j.wellFormed = true → encodeWith k j = .frame raw → j = .ofFrame t f)) ∧
    ∀ (k : Codes) (raw : Bytes), k.legal = true → decodeFrameWith k raw = .ok (.decode raw) →
      ∀ j : Instr, j.wellFormed = true → encodeWith k j ≠ .frame raw

/-- R65: each operation's words are selected by exactly one row of the opcode table, its own. -/
def Obligations.EachOperationHasItsOwnTableRow : Prop :=
  ∀ i : Instr, (opcodeTable.filter fun r => r.selects (encode i)).map Row.mnemonic = [i.mnemonic]

/-- R58, R55: words written out from the spec's encodings decode to what they stand for (V-REQ02, V-REQ05, V-REQ09, the
frame of V-DEC08 and V-DEC28). -/
def Obligations.WrittenOutWordsDecode : Prop :=
  decode (.request [0x01#8, 0xA1#8]) = .ok (.crcLoad 0xA1#8) ∧
    decode (.request [0x10#8, 0xAA#8, 0x02#8, 0x00#8, 0x80#8, 0x00#8]) =
      .ok (.encode 0xAA#8 0x02#8 0x00#8 0x80#8 []) ∧
    decode (.request [0x20#8, 0x05#8, 0xAA#8, 0x02#8, 0x00#8, 0x80#8, 0x71#8]) =
      .ok (.decode [0xAA#8, 0x02#8, 0x00#8, 0x80#8, 0x71#8]) ∧
    decode (.frame [0xAA#8, 0x01#8, 0x02#8, 0x04#8, 0x01#8, 0x02#8, 0x03#8, 0x00#8, 0x4F#8]) =
      .ok (.set ⟨0xAA#8, 0x02#8, 0x04#8, [0x01#8, 0x02#8, 0x03#8, 0x00#8], 0x4F#8⟩) ∧
    decode (.frame [0xAA#8, 0x04#8, 0x7F#8, 0x00#8, 0x82#8]) =
      .ok (.failureUnknownRegister ⟨0xAA#8, 0x7F#8, 0x00#8, [], 0x82#8⟩)

/-! ### The parameters (00_scope.md R7) -/

/-- R7, R142 ("The parameters of `00_scope.md` rule R7 are constants, not settings"): no step changes
them (they stand in the state by assumption 4). -/
def Obligations.StepKeepsTheParameters : Prop :=
  (∀ (i : Instr) (s t : State), exec i s = .next t → t.codes = s.codes) ∧
    ∀ s t : State, step s = .next t → t.codes = s.codes

/-- R55 ("No rule of the CRC unit, the encoder or the decoder depends on any of these codes"), R121: each of
the six operations has, in one state, the same effect under any parameters; and a buffer of at most 133 bytes handed over as a frame
(assumptions 7 and 8) is answered alike by all running machines, whatever their parameters. -/
def Obligations.EffectsDoNotDependOnTheParameters : Prop :=
  (∀ (i : Instr) (s : State), (∀ t f, i ≠ .ofFrame t f) → presentable i = true →
    ∃ c r, ∀ k : Codes,
      exec i { s with codes := k } = .next { s with codes := k, crc := c, results := r :: s.results }) ∧
    ∀ raw : Bytes, raw.length ≤ 133 → ∃ r, ∀ (s : State) (rest : List Arrival), s.phase = .running →
      s.inbox = .words (.frame raw) :: rest → step s = .next { s with inbox := rest, results := r :: s.results }

/-! ### The source's testable properties (00_scope.md R15) -/

/-- R15: the machine has the five testable properties the source gives of the block, in the source's own wording of them
(95_test_vectors.md V-S01 to V-S05); their stronger forms are the statements of R74, R107, R93, R108, R101 and R103. -/
def Obligations.SourceTestablePropertiesHold : Prop := TestableProperties
end

