-- ==== Sys2Proof/Laws/Codec.lean ====
section
/-! SUPPORT. One lemma per pure function and shared operation of the CRC unit and the codec: what it computes, in terms
of lists, so that no proof unfolds it again. -/

namespace Sys2Proof.Machine

/-! ### Reads of a byte sequence -/

@[simp] theorem byteAt_eq (B : Bytes) (a : Nat) (h : a < B.length) : byteAt B a h = B[a] := rfl

@[simp] theorem memRead_eq (B : Bytes) (a n : Nat) (h : a + n ≤ B.length) : memRead B a n h = (B.drop a).take n := rfl

/-- A read of `n` bytes gives `n` bytes (R11). -/
theorem memRead_length (B : Bytes) (a n : Nat) (h : a + n ≤ B.length) : (memRead B a n h).length = n := by
  rw [memRead_eq, List.length_take, List.length_drop]
  omega

/-! ### The checksum -/

@[simp] theorem crc8Update_nil (c : Byte) : crc8Update c [] = c := rfl

@[simp] theorem crc8Update_cons (c b : Byte) (B : Bytes) : crc8Update c (b :: B) = crc8Update (crc8Step c b) B := rfl

/-- R73 without its two constants, which are both zero. -/
theorem crc8_eq (B : Bytes) : crc8 B = crc8Update 0x00#8 B := by
  simp [crc8, Config.crcInit, Config.crcXorOut]

/-- R75's reason: a step depends on its operands only through their exclusive-or. -/
theorem crc8Step_xor (c b : Byte) : crc8Step c b = crc8Step 0x00#8 (c ^^^ b) := by
  simp [crc8Step]

/-! ### The encoder -/

/-- The size check of R93 as a proposition. -/
theorem tooLarge_iff (reqLen : Byte) (payload : Bytes) :
    tooLarge reqLen payload = true ↔ 128 < payload.length ∨ (payload = [] ∧ 128 < reqLen.toNat) := by
  rw [tooLarge, Bool.or_eq_true, Bool.and_eq_true, decide_eq_true_iff, decide_eq_true_iff, decide_eq_true_iff,
    List.length_eq_zero_iff, Config.maxPayload]

/-- What `encodeFrame` answers when the size check passes. -/
theorem encodeFrame_of_fits (dev ty reg reqLen : Byte) (payload : Bytes) (h : tooLarge reqLen payload = false) :
    encodeFrame dev ty reg reqLen payload =
      .ok ([dev, ty, reg, lenField reqLen payload] ++ payload ++
        [crc8Update (crc8 [dev, ty, reg, lenField reqLen payload]) payload]) := by
  simp [encodeFrame, h, header]

/-- What `encodeFrame` answers when it fails. -/
theorem encodeFrame_of_tooLarge (dev ty reg reqLen : Byte) (payload : Bytes) (h : tooLarge reqLen payload = true) :
    encodeFrame dev ty reg reqLen payload = .error .payloadTooLarge := by
  simp [encodeFrame, h]

/-- The declared length of a frame that is built never exceeds 128, and is the payload's when there is one (R91). -/
theorem lenField_of_fits (reqLen : Byte) (payload : Bytes) (h : tooLarge reqLen payload = false) :
    (lenField reqLen payload).toNat ≤ 128 ∧ (payload ≠ [] → (lenField reqLen payload).toNat = payload.length) ∧
      (payload = [] → lenField reqLen payload = reqLen) := by
  have hl := (tooLarge_iff reqLen payload).not.mp (by simp [h])
  cases payload with
  | nil =>
    have : ¬ 128 < reqLen.toNat := fun hc => hl (.inr ⟨rfl, hc⟩)
    simp [lenField]
    omega
  | cons b B =>
    have : B.length + 1 ≤ 128 := by
      by_contra hc
      exact hl (.inl (by simp only [List.length_cons]; omega))
    simp [lenField, BitVec.toNat_ofNat]
    omega

/-! ### The decoder -/

/-- A buffer of at least 5 bytes is a header, the bytes after it, and the byte at its end. -/
theorem buffer_shape (raw : Bytes) (h : 5 ≤ raw.length) :
    ∃ (dev ty reg len : Byte) (body : Bytes) (c : Byte), raw = [dev, ty, reg, len] ++ body ++ [c] := by
  match raw, h with
  | dev :: ty :: reg :: len :: x :: rest, _ =>
    exact ⟨dev, ty, reg, len, (x :: rest).dropLast, (x :: rest).getLast (by simp),
      by simp [List.dropLast_append_getLast]⟩

/-- `decodePacket` on fewer than 5 bytes (R101). -/
theorem decodePacket_short (raw : Bytes) (h : raw.length < 5) : decodePacket raw = .error .truncated := by
  simp [decodePacket, h]

/-- `decodePacket` on everything else, field by field (R100): all it can answer, once and for all. -/
theorem decodePacket_frame (dev ty reg len : Byte) (body : Bytes) (c : Byte) :
    decodePacket ([dev, ty, reg, len] ++ body ++ [c]) =
      if c ≠ crc8 ([dev, ty, reg, len] ++ body) then .error .checksumMismatch
      else if body.length < len.toNat then .error .truncated
      else .ok ⟨dev, ty, reg, len, body.take len.toNat⟩ := by
  have hshort : ¬ body.length + 1 + 1 + 1 + 1 + 1 < 5 := by omega
  simp only [decodePacket, byteAt_eq, memRead_eq, List.cons_append, List.nil_append, List.length_cons,
    List.length_append, List.length_nil, Nat.zero_add, hshort, dite_false]
  simp only [Nat.add_sub_cancel, List.getElem_cons_succ, List.getElem_cons_zero, List.drop_zero,
    List.take_succ_cons, List.take_left', List.getElem_concat_length, List.drop_succ_cons]
  split
  · rfl
  · have hl : (body ++ [c]).length + 1 + 1 + 1 + 1 - 5 = body.length := by simp
    simp only [dite_eq_ite, hl]
    split
    · rfl
    · rw [List.take_append_of_le_length (by omega)]

/-- All that `runDecode` can do: refuse a buffer above `RX_MAX`, or deliver what `decodePacket` answers. -/
theorem runDecode_cases (raw : Bytes) (s : State) :
    (133 < raw.length ∧ runDecode raw s = .refused (.rawTooLong raw.length)) ∨
      (raw.length ≤ 133 ∧ (∃ p, decodePacket raw = .ok p ∧ runDecode raw s = .next (deliver (.packet p) s))) ∨
      (raw.length ≤ 133 ∧ (∃ e, decodePacket raw = .error e ∧ runDecode raw s = .next (raiseError e.kind s))) := by
  unfold runDecode Config.rxMax
  by_cases h : 133 < raw.length
  · exact .inl ⟨h, by simp [h]⟩
  · cases hd : decodePacket raw with
    | ok p => exact .inr (.inl ⟨by omega, p, rfl, by rw [if_neg h]; rfl⟩)
    | error e => exact .inr (.inr ⟨by omega, e, rfl, by rw [if_neg h]; rfl⟩)

/-- All that `ENCODE` can do: deliver the frame, or the error. -/
theorem execEncode_cases (dev ty reg reqLen : Byte) (payload : Bytes) (s : State) :
    (∃ F, encodeFrame dev ty reg reqLen payload = .ok F ∧
      execEncode dev ty reg reqLen payload s = .next (deliver (.frame F) s)) ∨
      (encodeFrame dev ty reg reqLen payload = .error .payloadTooLarge ∧
        execEncode dev ty reg reqLen payload s = .next (raiseError .payloadTooLarge s)) := by
  unfold execEncode
  cases h : encodeFrame dev ty reg reqLen payload with
  | ok F => exact .inl ⟨F, rfl, rfl⟩
  | error e => cases e; exact .inr ⟨rfl, rfl⟩

end Sys2Proof.Machine
end

