-- ==== Sys2Proof/Laws/Encoding.lean ====
section
/-! SUPPORT. What the parameters of 00_scope.md R7 do to the encodings: under legal codes a code is read back as what it
stands for, under any codes a code that is read is the code of what it is read as; and a frame's operation is the decoder
on the frame's bytes. -/

namespace Sys2Proof

theorem Codes.legal_iff (k : Codes) :
    k.legal = true ↔ (Command.all.map k.cmd).Nodup ∧ (PacketType.all.map k.type).Nodup := by
  simp [Codes.legal]

/-- Looking up the value of a one-to-one code finds what has it. -/
theorem find_code_of_nodup {α : Type} [DecidableEq α] (code : α → Byte) (l : List α) (h : (l.map code).Nodup) (x : α)
    (hx : x ∈ l) : l.find? (fun c => code c == code x) = some x := by
  induction l with
  | nil => cases hx
  | cons a l ih =>
    rw [List.map_cons, List.nodup_cons] at h
    rcases List.mem_cons.mp hx with rfl | hx
    · simp
    · have hne : code a ≠ code x := fun e => h.1 (e ▸ List.mem_map_of_mem hx)
      rw [List.find?_cons_of_neg (by simpa using hne)]
      exact ih h.2 hx

theorem Command.ofCode_cmd {k : Codes} (h : k.legal = true) (c : Command) : Command.ofCode k (k.cmd c) = some c :=
  find_code_of_nodup _ _ (k.legal_iff.mp h).1 c (by cases c <;> decide)

theorem PacketType.ofCode_type {k : Codes} (h : k.legal = true) (t : PacketType) :
    PacketType.ofCode k (k.type t) = some t :=
  find_code_of_nodup _ _ (k.legal_iff.mp h).2 t (by cases t <;> decide)

theorem Command.cmd_of_ofCode {k : Codes} {b : Byte} {c : Command} (h : Command.ofCode k b = some c) : k.cmd c = b := by
  simpa using List.find?_some h

theorem PacketType.type_of_ofCode {k : Codes} {b : Byte} {t : PacketType} (h : PacketType.ofCode k b = some t) :
    k.type t = b := by
  simpa using List.find?_some h

theorem encodeWith_ofFrame (k : Codes) (t : PacketType) (f : FrameFields) :
    encodeWith k (.ofFrame t f) = .frame (f.bytes (k.type t)) := by
  cases t <;> rfl

/-- Cutting a frame's bytes gives its fields back. -/
theorem splitFrame_bytes (ty : Byte) (f : FrameFields) : splitFrame (f.bytes ty) = some (ty, f) := by
  simp [FrameFields.bytes, splitFrame]

namespace Machine

theorem exec_ofFrame (t : PacketType) (f : FrameFields) (s : State) : exec (.ofFrame t f) s = receiveFrame t f s := by
  cases t <;> rfl

theorem receiveFrame_eq (t : PacketType) (f : FrameFields) (s : State) :
    receiveFrame t f s = runDecode (f.bytes (s.codes.type t)) s := rfl

end Machine

end Sys2Proof
end

