-- ==== Sys2Proof/Laws/PerInstr.lean ====
section
/-! SUPPORT. Facts about every operation as syntax, one lemma per constructor of `Instr`. The family `EncodedLength`: how
many bytes an operation's words have (30_encoding.md R50, R58). -/

namespace Sys2Proof.Laws.EncodedLength

/-- The number of bytes presented. -/
def bytesPresented : Words → Nat
  | .request bytes => bytes.length
  | .frame raw => raw.length

/-- The number of bytes the format gives: R58's table for the operations, header, body and checksum for a frame. -/
def formatLength : Instr → Nat
  | .crcClr => 1
  | .crcLoad _ => 2
  | .crcByte _ => 2
  | .crcRead => 1
  | .encode _ _ _ _ payload => 6 + payload.length
  | .decode raw => 2 + raw.length
  | .set f => 5 + f.body.length
  | .get f => 5 + f.body.length
  | .success f => 5 + f.body.length
  | .failureUnknownRegister f => 5 + f.body.length
  | .failureBadLength f => 5 + f.body.length
  | .failureNotSupported f => 5 + f.body.length
  | .failureBadPassword f => 5 + f.body.length
  | .failureBadSignature f => 5 + f.body.length
  | .failureHalError f => 5 + f.body.length
  | .failureBadParameter f => 5 + f.body.length

/-- Under any codes, the words of an operation have the length of its format. -/
def Statement (i : Instr) : Prop := ∀ k : Codes, bytesPresented (encodeWith k i) = formatLength i

/-- A frame's bytes: header, body, checksum byte (R50). -/
theorem frameBytes_length (ty : Byte) (f : FrameFields) : (f.bytes ty).length = 5 + f.body.length := by
  simp only [FrameFields.bytes, List.length_append, List.length_cons, List.length_nil]
  omega

theorem crcClr : Statement .crcClr := fun _ => rfl
theorem crcLoad (v : Byte) : Statement (.crcLoad v) := fun _ => rfl
theorem crcByte (b : Byte) : Statement (.crcByte b) := fun _ => rfl
theorem crcRead : Statement .crcRead := fun _ => rfl
theorem encode (dev type reg reqLen : Byte) (payload : Bytes) : Statement (.encode dev type reg reqLen payload) := by
  intro k
  simp only [encodeWith, bytesPresented, formatLength, List.length_append,
    List.length_cons, List.length_nil]
theorem decode (raw : Bytes) : Statement (.decode raw) := by
  intro k
  simp only [encodeWith, bytesPresented, formatLength, List.length_append,
    List.length_cons, List.length_nil]
theorem set (f : FrameFields) : Statement (.set f) := fun _ => frameBytes_length _ f
theorem get (f : FrameFields) : Statement (.get f) := fun _ => frameBytes_length _ f
theorem success (f : FrameFields) : Statement (.success f) := fun _ => frameBytes_length _ f
theorem failureUnknownRegister (f : FrameFields) : Statement (.failureUnknownRegister f) := fun _ => frameBytes_length _ f
theorem failureBadLength (f : FrameFields) : Statement (.failureBadLength f) := fun _ => frameBytes_length _ f
theorem failureNotSupported (f : FrameFields) : Statement (.failureNotSupported f) := fun _ => frameBytes_length _ f
theorem failureBadPassword (f : FrameFields) : Statement (.failureBadPassword f) := fun _ => frameBytes_length _ f
theorem failureBadSignature (f : FrameFields) : Statement (.failureBadSignature f) := fun _ => frameBytes_length _ f
theorem failureHalError (f : FrameFields) : Statement (.failureHalError f) := fun _ => frameBytes_length _ f
theorem failureBadParameter (f : FrameFields) : Statement (.failureBadParameter f) := fun _ => frameBytes_length _ f

end Sys2Proof.Laws.EncodedLength
end

