-- ==== Sys2Proof/Laws/State.lean ====
section
/-! SUPPORT. One lemma per field per update of State, so that no proof unfolds a record update. -/

namespace Sys2Proof.Machine

@[simp] theorem readCrc_eq (s : State) : readCrc s = s.crc := rfl

@[simp] theorem writeCrc_crc (v : Byte) (s : State) : (writeCrc v s).crc = v := rfl
@[simp] theorem writeCrc_codes (v : Byte) (s : State) : (writeCrc v s).codes = s.codes := rfl
@[simp] theorem writeCrc_phase (v : Byte) (s : State) : (writeCrc v s).phase = s.phase := rfl
@[simp] theorem writeCrc_inbox (v : Byte) (s : State) : (writeCrc v s).inbox = s.inbox := rfl
@[simp] theorem writeCrc_results (v : Byte) (s : State) : (writeCrc v s).results = s.results := rfl

@[simp] theorem deliver_crc (r : Result) (s : State) : (deliver r s).crc = s.crc := rfl
@[simp] theorem deliver_codes (r : Result) (s : State) : (deliver r s).codes = s.codes := rfl
@[simp] theorem deliver_phase (r : Result) (s : State) : (deliver r s).phase = s.phase := rfl
@[simp] theorem deliver_inbox (r : Result) (s : State) : (deliver r s).inbox = s.inbox := rfl
@[simp] theorem deliver_results (r : Result) (s : State) : (deliver r s).results = r :: s.results := rfl

@[simp] theorem raiseError_crc (e : ErrorKind) (s : State) : (raiseError e s).crc = s.crc := rfl
@[simp] theorem raiseError_codes (e : ErrorKind) (s : State) : (raiseError e s).codes = s.codes := rfl
@[simp] theorem raiseError_phase (e : ErrorKind) (s : State) : (raiseError e s).phase = s.phase := rfl
@[simp] theorem raiseError_inbox (e : ErrorKind) (s : State) : (raiseError e s).inbox = s.inbox := rfl
@[simp] theorem raiseError_results (e : ErrorKind) (s : State) :
    (raiseError e s).results = .error e :: s.results := rfl

@[simp] theorem applyReset_crc (s : State) : (applyReset s).crc = 0x00#8 := rfl
@[simp] theorem applyReset_codes (s : State) : (applyReset s).codes = s.codes := rfl
@[simp] theorem applyReset_phase (s : State) : (applyReset s).phase = .running := rfl
@[simp] theorem applyReset_inbox (s : State) : (applyReset s).inbox = s.inbox := rfl
@[simp] theorem applyReset_results (s : State) : (applyReset s).results = s.results := rfl

@[simp] theorem present_crc (w : Words) (s : State) : (present w s).crc = s.crc := rfl
@[simp] theorem present_codes (w : Words) (s : State) : (present w s).codes = Config.codes := rfl
@[simp] theorem present_phase (w : Words) (s : State) : (present w s).phase = .running := rfl
@[simp] theorem present_inbox (w : Words) (s : State) : (present w s).inbox = .words w :: s.inbox := rfl
@[simp] theorem present_results (w : Words) (s : State) : (present w s).results = s.results := rfl

@[simp] theorem reset_crc : State.reset.crc = 0x00#8 := rfl
@[simp] theorem reset_codes : State.reset.codes = Config.codes := rfl
@[simp] theorem reset_phase : State.reset.phase = .running := rfl
@[simp] theorem reset_inbox : State.reset.inbox = [] := rfl
@[simp] theorem reset_results : State.reset.results = [] := rfl

end Sys2Proof.Machine
end

