-- ==== Sys2Proof/Laws/Step.lean ====
section
/-! SUPPORT. All that a step can do, said once: idle, a reset, an accepted operation, or a refusal. -/

namespace Sys2Proof.Machine

/-- All that `fetch` can answer. -/
theorem fetch_cases (s : State) :
    (s.inbox = [] ∧ fetch s = .idle) ∨
      (∃ rest, s.inbox = .reset :: rest ∧ fetch s = .reset (applyReset { s with inbox := rest })) ∨
      (∃ a rest, s.inbox = a :: rest ∧ a ≠ .reset ∧ s.phase = .beforeFirstReset ∧
        fetch s = .refuse .beforeFirstReset) ∨
      (∃ i rest, s.inbox = .operation i :: rest ∧ s.phase = .running ∧ fetch s = .run i { s with inbox := rest }) ∨
      (∃ w i rest, s.inbox = .words w :: rest ∧ s.phase = .running ∧ decodeWith s.codes w = .ok i ∧
        fetch s = .run i { s with inbox := rest }) ∨
      ∃ w r rest, s.inbox = .words w :: rest ∧ s.phase = .running ∧ decodeWith s.codes w = .error r ∧
        fetch s = .refuse (refusalOf r) := by
  rcases hb : s.inbox with _ | ⟨a, rest⟩
  · exact .inl ⟨rfl, by simp [fetch, hb]⟩
  · cases a with
    | reset => exact .inr (.inl ⟨rest, rfl, by simp [fetch, hb, readArrival]⟩)
    | operation i =>
      cases hp : s.phase with
      | beforeFirstReset => exact .inr (.inr (.inl ⟨_, rest, rfl, by simp, rfl, by simp [fetch, hb, readArrival, hp]⟩))
      | running => exact .inr (.inr (.inr (.inl ⟨i, rest, rfl, rfl, by simp [fetch, hb, readArrival, hp]⟩)))
    | words w =>
      cases hp : s.phase with
      | beforeFirstReset =>
        cases hd : decodeWith s.codes w with
        | ok i =>
          exact .inr (.inr (.inl ⟨_, rest, rfl, by simp, rfl, by simp [fetch, hb, readArrival, hp, hd, Except.map]⟩))
        | error r =>
          exact .inr (.inr (.inl ⟨_, rest, rfl, by simp, rfl, by simp [fetch, hb, readArrival, hp, hd, Except.map]⟩))
      | running =>
        cases hd : decodeWith s.codes w with
        | ok i =>
          exact .inr (.inr (.inr (.inr (.inl ⟨w, i, rest, rfl, rfl, hd, by
            simp [fetch, hb, readArrival, hp, hd, Except.map]⟩))))
        | error r =>
          exact .inr (.inr (.inr (.inr (.inr ⟨w, r, rest, rfl, rfl, hd, by
            simp [fetch, hb, readArrival, hp, hd, Except.map]⟩))))

/-- All that a step that goes on can be: idle, a reset, or an accepted operation. -/
theorem step_next_cases (s t : State) (h : step s = .next t) :
    (s.inbox = [] ∧ t = s) ∨ (∃ rest, s.inbox = .reset :: rest ∧ t = applyReset { s with inbox := rest }) ∨
      ∃ i a rest, s.inbox = a :: rest ∧ s.phase = .running ∧ fetch s = .run i { s with inbox := rest } ∧
        exec i { s with inbox := rest } = .next t := by
  rcases fetch_cases s with ⟨hb, hf⟩ | ⟨rest, hb, hf⟩ | ⟨a, rest, hb, -, -, hf⟩ | ⟨i, rest, hb, hp, hf⟩ |
    ⟨w, i, rest, hb, hp, -, hf⟩ | ⟨w, r, rest, hb, -, -, hf⟩
  · exact .inl ⟨hb, by simpa [step, hf] using h.symm⟩
  · exact .inr (.inl ⟨rest, hb, by simpa [step, hf] using h.symm⟩)
  · simp [step, hf] at h
  · exact .inr (.inr ⟨i, _, rest, hb, hp, hf, by simpa [step, hf] using h⟩)
  · exact .inr (.inr ⟨i, _, rest, hb, hp, hf, by simpa [step, hf] using h⟩)
  · simp [step, hf] at h

end Sys2Proof.Machine
end

