-- ==== Sys2Proof/Tests/Slice0.lean ====
section
/-! SUPPORT. The model's own tests. Expected values are the spec's: its examples and its vectors V-… of
95_test_vectors.md, and the encodings of 30_encoding.md; each test names its source. Then one witness per statement that
has hypotheses: concrete values that meet them together. -/

namespace Sys2Proof.Tests

set_option Elab.async false

open Sys2Proof Sys2Proof.Machine

/-- A running block with `CRC` = c and nothing at the port. -/
def st (c : Byte) : State :=
  { codes := Config.codes, crc := c, phase := .running, inbox := [], results := [] }

/-- A block before its first reset. -/
def cold (a : List Arrival) : State :=
  { codes := Config.codes, crc := 0x5A#8, phase := .beforeFirstReset, inbox := a, results := [] }

/-- A running block with `CRC` = c and these arrivals. -/
def withInbox (c : Byte) (a : List Arrival) : State :=
  { codes := Config.codes, crc := c, phase := .running, inbox := a, results := [] }

/-- Legal parameters other than the defaults: every command code moved up by 0x40, and `SET` = 0xFF. -/
def moved : Codes :=
  { Config.codes with
    commands := { crcClr := 0x40#8, crcLoad := 0x41#8, crcByte := 0x42#8, crcRead := 0x43#8, encode := 0x50#8,
                  decode := 0x60#8 }
    types := { Config.typeCodes with set := 0xFF#8 } }

/-- A running block with the parameters `moved`, `CRC` = 0x5A and these arrivals. -/
def elsewhere (a : List Arrival) : State :=
  { codes := moved, crc := 0x5A#8, phase := .running, inbox := a, results := [] }

/-- `CRC` and the result after one operation from `CRC` = c. -/
def answer (i : Instr) (c : Byte) : Option (Byte × List Result) :=
  (nextState? (exec i (st c))).map fun t => (t.crc, t.results)

/-- `CRC` and the result after one step with these bytes at the port. -/
def portAnswer (w : Words) (c : Byte) : Option (Byte × List Result) :=
  (nextState? (step (withInbox c [.words w]))).map fun t => (t.crc, t.results)

/-! ### WellFormed refuses an ill-formed term for each of its checks -/

set_option maxRecDepth 100000 in
theorem test_wf_encode_payload_256 : (Instr.encode 0x01#8 0x01#8 0x00#8 0x00#8 (List.replicate 256 0x00#8)).wellFormed = false := by
  decide +kernel
set_option maxRecDepth 100000 in
theorem test_wf_decode_134 : (Instr.decode (List.replicate 134 0x00#8)).wellFormed = false := by decide +kernel
set_option maxRecDepth 100000 in
theorem test_wf_frame_body_129 :
    (FrameFields.mk 0x01#8 0x00#8 0x00#8 (List.replicate 129 0x00#8) 0x00#8).wellFormed = false := by decide +kernel
set_option maxRecDepth 100000 in
theorem test_wf_every_frame_constructor :
    let f := FrameFields.mk 0x01#8 0x00#8 0x00#8 (List.replicate 129 0x00#8) 0x00#8
    PacketType.all.all (fun t => !(Instr.ofFrame t f).wellFormed) = true := by decide +kernel
theorem test_codes_with_a_repeated_command_are_illegal :
    Codes.legal { Config.codes with commands := { Config.commandCodes with decode := 0x10#8 } } = false := by decide +kernel
theorem test_codes_that_give_set_the_code_of_get_are_illegal :
    Codes.legal { Config.codes with types := { Config.typeCodes with set := 0x02#8 } } = false := by decide +kernel
theorem test_default_codes_are_legal : Config.codes.legal = true := by decide +kernel

/-! ### Decoding, every constructor, from words written out bit by bit (R58, R59, R55, R32) -/

theorem test_decode_crcClr : decode (.request [0b00000000#8]) = .ok .crcClr := rfl
theorem test_decode_crcLoad : decode (.request [0b00000001#8, 0b10100001#8]) = .ok (.crcLoad 0xA1#8) := rfl
theorem test_decode_crcByte : decode (.request [0b00000010#8, 0b00110001#8]) = .ok (.crcByte 0x31#8) := rfl
theorem test_decode_crcRead : decode (.request [0b00000011#8]) = .ok .crcRead := rfl
/-- V-REQ06. -/
theorem test_decode_encode :
    decode (.request [0b00010000#8, 0b00000001#8, 0b00000001#8, 0b00010000#8, 0b00000000#8, 0b00000100#8, 0xDE#8, 0xAD#8,
      0xBE#8, 0xEF#8]) = .ok (.encode 0x01#8 0x01#8 0x10#8 0x00#8 [0xDE#8, 0xAD#8, 0xBE#8, 0xEF#8]) := rfl
/-- V-REQ08. -/
theorem test_decode_decode :
    decode (.request [0b00100000#8, 0b00000101#8, 0xAA#8, 0x02#8, 0x00#8, 0x00#8, 0xFD#8]) =
      .ok (.decode [0xAA#8, 0x02#8, 0x00#8, 0x00#8, 0xFD#8]) := rfl
theorem test_decode_set :
    decode (.frame [0b10101010#8, 0b00000001#8, 0b00000101#8, 0b00000001#8, 0x77#8, 0x88#8]) =
      .ok (.set ⟨0xAA#8, 0x05#8, 0x01#8, [0x77#8], 0x88#8⟩) := rfl
theorem test_decode_get :
    decode (.frame [0b10101010#8, 0b00000010#8, 0b00000101#8, 0b00000001#8, 0x77#8, 0x88#8]) =
      .ok (.get ⟨0xAA#8, 0x05#8, 0x01#8, [0x77#8], 0x88#8⟩) := rfl
theorem test_decode_success :
    decode (.frame [0b10101010#8, 0b00000011#8, 0b00000101#8, 0b00000001#8, 0x77#8, 0x88#8]) =
      .ok (.success ⟨0xAA#8, 0x05#8, 0x01#8, [0x77#8], 0x88#8⟩) := rfl
theorem test_decode_failureUnknownRegister :
    decode (.frame [0b10101010#8, 0b00000100#8, 0b00000101#8, 0b00000001#8, 0x77#8, 0x88#8]) =
      .ok (.failureUnknownRegister ⟨0xAA#8, 0x05#8, 0x01#8, [0x77#8], 0x88#8⟩) := rfl
theorem test_decode_failureBadLength :
    decode (.frame [0b10101010#8, 0b00000101#8, 0b00000101#8, 0b00000001#8, 0x77#8, 0x88#8]) =
      .ok (.failureBadLength ⟨0xAA#8, 0x05#8, 0x01#8, [0x77#8], 0x88#8⟩) := rfl
theorem test_decode_failureNotSupported :
    decode (.frame [0b10101010#8, 0b00000110#8, 0b00000101#8, 0b00000001#8, 0x77#8, 0x88#8]) =
      .ok (.failureNotSupported ⟨0xAA#8, 0x05#8, 0x01#8, [0x77#8], 0x88#8⟩) := rfl
theorem test_decode_failureBadPassword :
    decode (.frame [0b10101010#8, 0b00000111#8, 0b00000101#8, 0b00000001#8, 0x77#8, 0x88#8]) =
      .ok (.failureBadPassword ⟨0xAA#8, 0x05#8, 0x01#8, [0x77#8], 0x88#8⟩) := rfl
theorem test_decode_failureBadSignature :
    decode (.frame [0b10101010#8, 0b00001000#8, 0b00000101#8, 0b00000001#8, 0x77#8, 0x88#8]) =
      .ok (.failureBadSignature ⟨0xAA#8, 0x05#8, 0x01#8, [0x77#8], 0x88#8⟩) := rfl
theorem test_decode_failureHalError :
    decode (.frame [0b10101010#8, 0b00001001#8, 0b00000101#8, 0b00000001#8, 0x77#8, 0x88#8]) =
      .ok (.failureHalError ⟨0xAA#8, 0x05#8, 0x01#8, [0x77#8], 0x88#8⟩) := rfl
theorem test_decode_failureBadParameter :
    decode (.frame [0b10101010#8, 0b00001010#8, 0b00000101#8, 0b00000001#8, 0x77#8, 0x88#8]) =
      .ok (.failureBadParameter ⟨0xAA#8, 0x05#8, 0x01#8, [0x77#8], 0x88#8⟩) := rfl
/-- A type outside the enumeration is the decoder's business all the same (R61 item 2; V-DEC27). -/
theorem test_decode_frame_of_unlisted_type :
    decode (.frame [0x00#8, 0xFF#8, 0x09#8, 0x01#8, 0x77#8, 0xDA#8]) =
      .ok (.decode [0x00#8, 0xFF#8, 0x09#8, 0x01#8, 0x77#8, 0xDA#8]) := rfl
/-- V-REQ12. -/
theorem test_decode_unassigned :
    [0x04#8, 0x0F#8, 0x11#8, 0x21#8, 0xFF#8].all (fun c => decide (decodeTableWord 8 c.toNat = none)) = true := by decide +kernel
/-- V-REQ13. -/
theorem test_decode_too_long : decodeRequestWith Config.codes [0x20#8, 0x86#8, 0x00#8] = .error (.rawTooLong 134) := rfl
theorem test_decode_incomplete : decodeRequestWith Config.codes [0x01#8] = .error .incomplete := rfl
theorem test_decode_overlong : decodeRequestWith Config.codes [0x00#8, 0x05#8] = .error .overlong := rfl

/-! ### The host's table words: each row decodes to its operation and runs as the first after reset -/

theorem test_table_words_of_operations :
    [0x00, 0x01, 0x02, 0x03, 0x10, 0x20].map (decodeTableWord 8) =
      [some .crcClr, some (.crcLoad 0x00#8), some (.crcByte 0x00#8), some .crcRead,
        some (.encode 0x00#8 0x00#8 0x00#8 0x00#8 []), some (.decode [])] := by decide +kernel
/-- `H` = 0xAA020080 is the header `AA 02 00 80` (R51). -/
theorem test_table_word_of_get :
    decodeTableWord 32 0xAA020080 = some (.get ⟨0xAA#8, 0x00#8, 0x80#8, [], 0x00#8⟩) := by decide +kernel
theorem test_table_words_of_frames :
    (List.range 10).map (fun n => (decodeTableWord 32 ((n + 1) * 0x10000)).map Instr.mnemonic) =
      ["SET", "GET", "SUCCESS", "FAILURE_UNKNOWN_REGISTER", "FAILURE_BAD_LENGTH", "FAILURE_NOT_SUPPORTED",
        "FAILURE_BAD_PASSWORD", "FAILURE_BAD_SIGNATURE", "FAILURE_HAL_ERROR", "FAILURE_BAD_PARAMETER"].map some := by decide +kernel
theorem test_table_words_run_after_reset :
    (opcodeTable.all fun r => (nextState? (step (State.reset.withFetchWord r.width r.pattern))).isSome) = true := by decide +kernel
theorem test_table_rows_do_not_overlap :
    opcodeTable.Pairwise fun a b => a.width ≠ b.width ∨ a.pattern &&& (a.mask &&& b.mask) ≠ b.pattern &&& (a.mask &&& b.mask) := by
  decide +kernel

/-! ### The checksum (V-CRC01 to V-CRC14) -/

/-- V-CRC01 and V-CRC02: the eight rounds. -/
theorem test_crc_rounds :
    ((List.range 8).map fun n => repeatTimes (n + 1) crcRound 0x01#8) =
        [0x8C#8, 0x46#8, 0x23#8, 0x9D#8, 0xC2#8, 0x61#8, 0xBC#8, 0x5E#8] ∧
      ((List.range 8).map fun n => repeatTimes (n + 1) crcRound 0xAA#8) =
        [0x55#8, 0xA6#8, 0x53#8, 0xA5#8, 0xDE#8, 0x6F#8, 0xBB#8, 0xD1#8] := by decide +kernel
/-- V-CRC05, the check value, in both forms. -/
theorem test_crc_check_value :
    crc8 [0x31#8, 0x32#8, 0x33#8, 0x34#8, 0x35#8, 0x36#8, 0x37#8, 0x38#8, 0x39#8] = 0xA1#8 ∧
      crc8Literal [0x31#8, 0x32#8, 0x33#8, 0x34#8, 0x35#8, 0x36#8, 0x37#8, 0x38#8, 0x39#8] = 0xA1#8 := by decide +kernel
/-- V-CRC08, V-CRC09, V-CRC11, V-CRC12. -/
theorem test_crc_samples :
    crc8 [0xFF#8, 0xFF#8, 0xFF#8, 0xFF#8] = 0x8D#8 ∧ crc8 [0x8C#8] = 0x2F#8 ∧
      crc8 [0x4F#8, 0x4B#8, 0x4D#8, 0x43#8, 0x55#8] = 0xF9#8 ∧ crc8 [0x01#8, 0x02#8, 0x03#8, 0x04#8] = 0xF4#8 := by decide +kernel

/-! ### The operations of the CRC unit -/

/-- V-CRC15. -/
theorem test_crcClr : answer .crcClr 0x5A#8 = some (0x00#8, [.ok]) := by decide +kernel
/-- R82's example. -/
theorem test_crcLoad : answer (.crcLoad 0xF1#8) 0x00#8 = some (0xF1#8, [.ok]) := by decide +kernel
/-- V-CRC19: a zero byte is not a no-operation. -/
theorem test_crcByte_zero : answer (.crcByte 0x00#8) 0x5A#8 = some (0xA5#8, [.ok]) := by decide +kernel
/-- V-CRC20. -/
theorem test_crcByte : answer (.crcByte 0x5A#8) 0xA1#8 = some (0x54#8, [.ok]) := by decide +kernel
/-- V-CRC17. -/
theorem test_crcRead : answer .crcRead 0xA1#8 = some (0xA1#8, [.byte 0xA1#8]) := by decide +kernel
/-- V-CRC23 and V-CRC24. -/
theorem test_pseudo_sum_and_update :
    ((nextState? (issue (expand (.crcSum [0xAA#8, 0x02#8, 0x00#8, 0x80#8])) (st 0x3C#8))).map
        fun t => (t.crc, t.results.head?)) = some (0x71#8, some (.byte 0x71#8)) ∧
      ((nextState? (issue (expand (.crcUpdate 0xF1#8 [0x35#8, 0x36#8, 0x37#8, 0x38#8, 0x39#8])) (st 0x3C#8))).map
        fun t => (t.crc, t.results.head?)) = some (0xA1#8, some (.byte 0xA1#8)) := by decide +kernel

/-! ### The encoder and the decoder -/

/-- V-REQ05, the source's scenario, with V-ENC16's register value. -/
theorem test_encode_get_request :
    portAnswer (.request [0x10#8, 0xAA#8, 0x02#8, 0x00#8, 0x80#8, 0x00#8]) 0x5A#8 =
      some (0x5A#8, [.frame [0xAA#8, 0x02#8, 0x00#8, 0x80#8, 0x71#8]]) := by decide +kernel
/-- V-ENC08: `req_len` is ignored when there is a payload; V-ENC06 and V-REQ07: not when there is none. -/
theorem test_encode_req_len :
    answer (.encode 0x01#8 0x01#8 0x01#8 0xFF#8 [0x00#8]) 0x00#8 =
        some (0x00#8, [.frame [0x01#8, 0x01#8, 0x01#8, 0x01#8, 0x00#8, 0x2D#8]]) ∧
      answer (.encode 0x01#8 0x02#8 0x01#8 0x81#8 []) 0x3C#8 = some (0x3C#8, [.error .payloadTooLarge]) := by decide +kernel
set_option maxRecDepth 100000 in
/-- V-ENC09: the largest frame, by its length, its header and its checksum byte. -/
theorem test_encode_largest :
    ((encodeFrame 0x01#8 0x01#8 0x20#8 0x00#8 ((List.range 128).map (BitVec.ofNat 8))).toOption.map fun F =>
        (F.length, F.take 5, F.getLast?)) =
      some (133, [0x01#8, 0x01#8, 0x20#8, 0x80#8, 0x00#8], some 0xBD#8) := by decide +kernel
/-- V-DEC08. -/
theorem test_decode_packet :
    answer (.decode [0xAA#8, 0x01#8, 0x02#8, 0x04#8, 0x01#8, 0x02#8, 0x03#8, 0x00#8, 0x4F#8]) 0x5A#8 =
      some (0x5A#8, [.packet ⟨0xAA#8, 0x01#8, 0x02#8, 0x04#8, [0x01#8, 0x02#8, 0x03#8, 0x00#8]⟩]) := by decide +kernel
/-- V-DEC11 (both faults: the checksum decides), V-DEC12 and V-DEC05 (`Truncated`, both causes), V-DEC13 (excess). -/
theorem test_decode_checks :
    answer (.decode [0xAA#8, 0x01#8, 0x02#8, 0x84#8, 0x01#8, 0x02#8, 0x03#8, 0x00#8, 0x4F#8]) 0x00#8 =
        some (0x00#8, [.error .checksumMismatch]) ∧
      answer (.decode [0xAA#8, 0x01#8, 0x02#8, 0x04#8, 0x01#8, 0x02#8, 0x03#8, 0x91#8]) 0x00#8 =
        some (0x00#8, [.error .truncated]) ∧
      answer (.decode [0xAA#8, 0x02#8, 0x00#8, 0x80#8]) 0x00#8 = some (0x00#8, [.error .truncated]) ∧
      answer (.decode [0xAA#8, 0x01#8, 0x02#8, 0x02#8, 0x01#8, 0x02#8, 0x03#8, 0x00#8, 0xD3#8]) 0x00#8 =
        some (0x00#8, [.packet ⟨0xAA#8, 0x01#8, 0x02#8, 0x02#8, [0x01#8, 0x02#8]⟩]) := by decide +kernel
set_option maxRecDepth 100000 in
/-- V-DEC14, V-DEC15 and V-DEC16: `LEN` = 200, 129 and 128 in a buffer of 133 bytes. -/
theorem test_decode_largest :
    decodePacket ([0xAA#8, 0x01#8, 0x02#8, 0xC8#8] ++ List.replicate 128 0x00#8 ++ [0x8C#8]) = .error .truncated ∧
      decodePacket ([0xAA#8, 0x01#8, 0x02#8, 0x81#8] ++ List.replicate 128 0x00#8 ++ [0xA5#8]) = .error .truncated ∧
      decodePacket ([0xAA#8, 0x01#8, 0x02#8, 0x80#8] ++ List.replicate 128 0x00#8 ++ [0x61#8]) =
        .ok ⟨0xAA#8, 0x01#8, 0x02#8, 0x80#8, List.replicate 128 0x00#8⟩ := by decide +kernel

/-! ### The frames: the empty frame of each type from device 0xAA (95_test_vectors.md 2.2) -/

theorem test_set : portAnswer (.frame [0xAA#8, 0x01#8, 0x00#8, 0x00#8, 0x19#8]) 0x5A#8 =
    some (0x5A#8, [.packet ⟨0xAA#8, 0x01#8, 0x00#8, 0x00#8, []⟩]) := by decide +kernel
theorem test_get : portAnswer (.frame [0xAA#8, 0x02#8, 0x00#8, 0x00#8, 0xFD#8]) 0x5A#8 =
    some (0x5A#8, [.packet ⟨0xAA#8, 0x02#8, 0x00#8, 0x00#8, []⟩]) := by decide +kernel
theorem test_success : portAnswer (.frame [0xAA#8, 0x03#8, 0x00#8, 0x00#8, 0x56#8]) 0x5A#8 =
    some (0x5A#8, [.packet ⟨0xAA#8, 0x03#8, 0x00#8, 0x00#8, []⟩]) := by decide +kernel
theorem test_failureUnknownRegister : portAnswer (.frame [0xAA#8, 0x04#8, 0x00#8, 0x00#8, 0x2C#8]) 0x5A#8 =
    some (0x5A#8, [.packet ⟨0xAA#8, 0x04#8, 0x00#8, 0x00#8, []⟩]) := by decide +kernel
theorem test_failureBadLength : portAnswer (.frame [0xAA#8, 0x05#8, 0x00#8, 0x00#8, 0x87#8]) 0x5A#8 =
    some (0x5A#8, [.packet ⟨0xAA#8, 0x05#8, 0x00#8, 0x00#8, []⟩]) := by decide +kernel
theorem test_failureNotSupported : portAnswer (.frame [0xAA#8, 0x06#8, 0x00#8, 0x00#8, 0x63#8]) 0x5A#8 =
    some (0x5A#8, [.packet ⟨0xAA#8, 0x06#8, 0x00#8, 0x00#8, []⟩]) := by decide +kernel
theorem test_failureBadPassword : portAnswer (.frame [0xAA#8, 0x07#8, 0x00#8, 0x00#8, 0xC8#8]) 0x5A#8 =
    some (0x5A#8, [.packet ⟨0xAA#8, 0x07#8, 0x00#8, 0x00#8, []⟩]) := by decide +kernel
theorem test_failureBadSignature : portAnswer (.frame [0xAA#8, 0x08#8, 0x00#8, 0x00#8, 0x97#8]) 0x5A#8 =
    some (0x5A#8, [.packet ⟨0xAA#8, 0x08#8, 0x00#8, 0x00#8, []⟩]) := by decide +kernel
theorem test_failureHalError : portAnswer (.frame [0xAA#8, 0x09#8, 0x00#8, 0x00#8, 0x3C#8]) 0x5A#8 =
    some (0x5A#8, [.packet ⟨0xAA#8, 0x09#8, 0x00#8, 0x00#8, []⟩]) := by decide +kernel
theorem test_failureBadParameter : portAnswer (.frame [0xAA#8, 0x0A#8, 0x00#8, 0x00#8, 0xD8#8]) 0x5A#8 =
    some (0x5A#8, [.packet ⟨0xAA#8, 0x0A#8, 0x00#8, 0x00#8, []⟩]) := by decide +kernel
/-- V-DEC07 handed over as a frame: the source's `GET` request does not decode. -/
theorem test_get_request_frame :
    portAnswer (.frame [0xAA#8, 0x02#8, 0x00#8, 0x80#8, 0x71#8]) 0x00#8 = some (0x00#8, [.error .truncated]) := by decide +kernel

/-! ### The port -/

/-- V-REQ14, and the reset that ends it (R140). -/
theorem test_before_the_first_reset :
    refusal? (step (cold [.words (.request [0x00#8])])) = some .beforeFirstReset ∧
      nextState? (step (cold [.reset])) = some (st 0x00#8) := by decide +kernel
/-- V-REQ12 and V-REQ13: refused, no step. -/
theorem test_refused_requests :
    refusal? (step (withInbox 0x3C#8 [.words (.request [0x7E#8])])) = some (.unassignedCommand 0x7E#8) ∧
      refusal? (step (withInbox 0x3C#8 [.words (.request [0x20#8, 0x86#8])])) = some (.rawTooLong 134) := by decide +kernel
/-- R121: the status codes of V-REQ01, V-REQ07, V-REQ09 and V-REQ10. -/
theorem test_status_codes :
    [Result.ok, .error .payloadTooLarge, .error .truncated, .error .checksumMismatch].map Result.status =
      [0x00#8, 0x01#8, 0x02#8, 0x03#8] := by decide +kernel

/-- R59 with other command codes: their bytes ask for the same operations, and a default byte is unassigned. -/
theorem test_other_command_codes :
    ((nextState? (step (elsewhere [.words (.request [0x41#8, 0xA1#8])]))).map State.crc) = some 0xA1#8 ∧
      refusal? (step (elsewhere [.words (.request [0x01#8, 0xA1#8])])) = some (.unassignedCommand 0x01#8) := by
  decide +kernel
/-- R55 with `SET` = 0xFF: the frame of V-DEC27 is then a frame of type `SET`, read as one and decoded alike. -/
theorem test_other_type_codes :
    decodeFrameWith moved [0x00#8, 0xFF#8, 0x09#8, 0x01#8, 0x77#8, 0xDA#8] =
        .ok (.set ⟨0x00#8, 0x09#8, 0x01#8, [0x77#8], 0xDA#8⟩) ∧
      (nextState? (exec (.set ⟨0x00#8, 0x09#8, 0x01#8, [0x77#8], 0xDA#8⟩) (elsewhere []))).map State.results =
        some [.packet ⟨0x00#8, 0xFF#8, 0x09#8, 0x01#8, [0x77#8]⟩] :=
  ⟨rfl, by decide +kernel⟩

/-! ### Witnesses: concrete values that meet the hypotheses of each statement together -/

theorem witness_ChecksumAgreesWithItsLiteralForm : 0 < 8 ∧ 7 < 8 := by decide +kernel
theorem witness_ChecksumIsLinear : [0x31#8, 0x32#8].length = [0xFF#8, 0x01#8].length := rfl
theorem witness_ChecksumStepIsOneToOne :
    crc8Step 0x5A#8 0x31#8 = crc8Step (0x00#8 ^^^ 0x5A#8) 0x31#8 ∧ crc8Step 0x5A#8 0x31#8 = crc8Step 0x5A#8 (0x30#8 ^^^ 0x01#8) := by
  decide +kernel
theorem witness_SingleByteErrorsChangeTheChecksum :
    (0 < [0xAA#8, 0x02#8].length ∧ [0xAA#8, 0x02#8][0]? ≠ some 0xAB#8) ∧
      (1 < [0xAA#8, 0x02#8].length ∧ [0xAA#8, 0x02#8][1]? ≠ some 0x00#8) := by decide +kernel
theorem witness_CrcClrStartsANewChecksum :
    (∃ t u, exec .crcClr (st 0xA1#8) = .next t ∧ exec .crcClr t = .next u) ∧ Config.codes.legal = true :=
  ⟨⟨_, _, rfl, rfl⟩, by decide +kernel⟩
/-- Legal codes other than the defaults. -/
theorem witness_CrcLoadSetsTheChecksum : moved.legal = true := by decide +kernel
theorem witness_CrcByteAbsorbsOneByte : (st 0x00#8).crc = 0x00#8 ∧ Config.codes.legal = true := by decide +kernel
theorem witness_CrcReadDeliversTheChecksum : Config.codes.legal = true := by decide +kernel
theorem witness_InterleavedRunLeavesTheUpdatedChecksum :
    ∀ i ∈ [Instr.crcByte 0x31#8, .decode [], .encode 0x01#8 0x02#8 0x01#8 0x81#8 [], .crcRead, .set ⟨0x01#8, 0x00#8, 0x00#8, [], 0x00#8⟩,
      .crcByte 0x32#8], continuesChecksum i = true ∧ presentable i = true := by decide +kernel
/-- P2 of 95_test_vectors.md: the header is checksummed in between. -/
theorem witness_SavedAndRestoredChecksumIsUninterrupted :
    ∃ t u, issue (expand (.crcSum [0x31#8, 0x32#8, 0x33#8, 0x34#8])) (st 0x00#8) = .next t ∧
      t.results.head? = some (.byte 0xF1#8) ∧
      issue (expand (.crcSum [0xAA#8, 0x02#8, 0x00#8, 0x80#8])) t = .next u :=
  ⟨_, _, rfl, by decide +kernel, rfl⟩
set_option maxRecDepth 100000 in
theorem witness_EncodeBuildsTheFrame :
    ((List.replicate 128 0xA5#8).length ≤ 128 ∧ (List.replicate 128 0xA5#8 = [] → (0xFF#8).toNat ≤ 128)) ∧
      (([] : Bytes).length ≤ 128 ∧ (([] : Bytes) = [] → (0x80#8).toNat ≤ 128)) := by decide +kernel
set_option maxRecDepth 100000 in
theorem witness_EncodeFailsExactlyWhenTooLarge :
    (128 < (List.replicate 129 0x00#8).length) ∧ (([] : Bytes) = [] ∧ 128 < (0x81#8).toNat) ∧
      ¬(128 < (List.replicate 128 0x00#8).length ∨ (List.replicate 128 0x00#8 = [] ∧ 128 < (0xFF#8).toNat)) ∧
      ¬(128 < ([] : Bytes).length ∨ (([] : Bytes) = [] ∧ 128 < (0x80#8).toNat)) := by decide +kernel
theorem witness_EqualFramesHaveEqualOperands :
    (∃ F, encodeFrame 0x01#8 0x01#8 0x05#8 0x80#8 [0x55#8] = .ok F ∧ encodeFrame 0x01#8 0x01#8 0x05#8 0x00#8 [0x55#8] = .ok F) ∧
      ∃ F1 F2, encodeFrame 0xAA#8 0x02#8 0x00#8 0x80#8 [] = .ok F1 ∧ encodeFrame 0xAA#8 0x02#8 0x00#8 0x00#8 [] = .ok F2 :=
  ⟨⟨_, rfl, rfl⟩, ⟨_, _, rfl, rfl⟩⟩
set_option maxRecDepth 100000 in
theorem witness_DecodeDeliversThePacket :
    ((List.replicate 128 0x00#8).length = (0x80#8).toNat ∧ 5 + (List.replicate 128 0x00#8).length + ([] : Bytes).length ≤ 133) ∧
      (([] : Bytes).length = (0x00#8).toNat ∧ 5 + ([] : Bytes).length + (List.replicate 128 0x00#8).length ≤ 133) := by decide +kernel
set_option maxRecDepth 100000 in
theorem witness_DeliveredPacketComesFromTheBuffer :
    exec (.decode [0xAA#8, 0x01#8, 0x02#8, 0x02#8, 0x01#8, 0x02#8, 0x03#8, 0x00#8, 0xD3#8]) (st 0x00#8) =
      .next { st 0x00#8 with results := .packet ⟨0xAA#8, 0x01#8, 0x02#8, 0x02#8, [0x01#8, 0x02#8]⟩ :: (st 0x00#8).results } :=
  rfl
theorem witness_ShortBufferIsTruncated :
    ([] : Bytes).length < 5 ∧ [0xAA#8, 0x02#8, 0x00#8, 0x80#8].length < 5 := by decide +kernel
set_option maxRecDepth 100000 in
theorem witness_WrongChecksumIsReported :
    (4 ≤ [0xAA#8, 0x02#8, 0x00#8, 0x00#8].length ∧ [0xAA#8, 0x02#8, 0x00#8, 0x00#8].length ≤ 132) ∧
      (4 ≤ (List.replicate 132 0x00#8).length ∧ (List.replicate 132 0x00#8).length ≤ 132) := by decide +kernel
set_option maxRecDepth 100000 in
theorem witness_UnfittingLengthIsTruncated :
    (([] : Bytes).length ≤ 128 ∧ ([] : Bytes).length < (0x01#8).toNat) ∧
      ((List.replicate 128 0x00#8).length ≤ 128 ∧ (List.replicate 128 0x00#8).length < (0x81#8).toNat) := by decide +kernel
/-- V-DEC11. -/
theorem witness_ChecksumIsCheckedBeforeTheLength :
    [0x01#8, 0x02#8, 0x03#8, 0x00#8].length ≤ 128 ∧ [0x01#8, 0x02#8, 0x03#8, 0x00#8].length < (0x84#8).toNat ∧
      0x4F#8 ≠ crc8 ([0xAA#8, 0x01#8, 0x02#8, 0x84#8] ++ [0x01#8, 0x02#8, 0x03#8, 0x00#8]) := by decide +kernel
set_option maxRecDepth 100000 in
theorem witness_OverlongDeclaredLengthIsNeverAPacket :
    let raw := [0xAA#8, 0x01#8, 0x02#8, 0x81#8] ++ List.replicate 128 0x00#8 ++ [0xA5#8]
    raw.length ≤ 133 ∧ raw[3]? = some 0x81#8 ∧ 129 ≤ (0x81#8).toNat := by decide +kernel
set_option maxRecDepth 100000 in
theorem witness_EncodeThenDecodeRoundTrips :
    (([] : Bytes).length ≤ 128 ∧ (([] : Bytes) ≠ [] ∨ 0x00#8 = 0x00#8)) ∧
      ((List.replicate 128 0x00#8).length ≤ 128 ∧ (List.replicate 128 0x00#8 ≠ [] ∨ 0xFF#8 = 0x00#8)) ∧
      (∃ p, exec (.decode [0xAA#8, 0x01#8, 0x02#8, 0x01#8, 0x55#8, crc8 [0xAA#8, 0x01#8, 0x02#8, 0x01#8, 0x55#8]]) (st 0x00#8) =
          .next { st 0x00#8 with results := .packet p :: (st 0x00#8).results } ∧ 6 = 5 + p.len.toNat) :=
  ⟨by decide +kernel, by decide +kernel, ⟨⟨0xAA#8, 0x01#8, 0x02#8, 0x01#8, [0x55#8]⟩, rfl, rfl⟩⟩
theorem witness_RequestFrameDoesNotDecode :
    (0 < (0x01#8).toNat ∧ (0x01#8).toNat ≤ 128) ∧ (0 < (0x80#8).toNat ∧ (0x80#8).toNat ≤ 128) := by decide +kernel
set_option maxRecDepth 100000 in
theorem witness_SingleByteCorruptionIsDetected :
    exec (.encode 0xAA#8 0x02#8 0x00#8 0x80#8 []) (st 0x00#8) =
        .next { st 0x00#8 with results := .frame [0xAA#8, 0x02#8, 0x00#8, 0x80#8, 0x71#8] :: (st 0x00#8).results } ∧
      (3 < [0xAA#8, 0x02#8, 0x00#8, 0x80#8, 0x71#8].length ∧ [0xAA#8, 0x02#8, 0x00#8, 0x80#8, 0x71#8][3]? ≠ some 0x00#8) ∧
      (4 < [0xAA#8, 0x02#8, 0x00#8, 0x80#8, 0x71#8].length ∧ [0xAA#8, 0x02#8, 0x00#8, 0x80#8, 0x71#8][4]? ≠ some 0x70#8) :=
  ⟨rfl, by decide +kernel, by decide +kernel⟩
theorem witness_ZeroBufferDecodesToTheZeroPacket :
    (5 ≤ 5 ∧ 5 ≤ 133) ∧ (5 ≤ 133 ∧ 133 ≤ 133) ∧
      (5 ≤ [0xAA#8, 0x02#8, 0x00#8, 0x00#8, 0xFD#8].length ∧ 128 + [0xAA#8, 0x02#8, 0x00#8, 0x00#8, 0xFD#8].length ≤ 133) := by
  decide +kernel
/-- V-DEC22 and V-DEC23: `X` that does not check, and a second frame. -/
theorem witness_BytesAfterAValidFrame :
    let F := [0xAA#8, 0x03#8, 0x00#8, 0x00#8, 0x56#8]
    5 ≤ F.length ∧ crc8 F = 0x00#8 ∧ F[3]? = some 0x00#8 ∧
      (F.length + [0x01#8].length ≤ 133 ∧ crc8 [0x01#8] ≠ 0x00#8) ∧
      (F.length + F.length ≤ 133 ∧ crc8 F = 0x00#8 ∧ (0x00#8).toNat ≤ F.length - 5) := by decide +kernel
set_option maxRecDepth 100000 in
theorem witness_CodecIsBlindToThePacketType :
    (∃ F, encodeFrame 0xAA#8 0x02#8 0x00#8 0x00#8 [0x11#8, 0x22#8] = .ok F) ∧
      (∃ e, encodeFrame 0x01#8 0x02#8 0x01#8 0x81#8 [] = .error e) ∧
      ∃ p, decodePacket ([0xAA#8, 0x04#8, 0x7F#8, 0x00#8] ++ [] ++ [crc8 ([0xAA#8, 0x04#8, 0x7F#8, 0x00#8] ++ [])]) = .ok p :=
  ⟨⟨_, rfl⟩, ⟨_, rfl⟩, ⟨_, rfl⟩⟩
set_option maxRecDepth 100000 in
/-- The empty frame of each type, one whose payload fills the frame (V-DEC16), and V-DEC27 under other codes. -/
theorem witness_FramesDecodeToTheirFields :
    frameChecks (Config.codes.type .set) ⟨0xAA#8, 0x00#8, 0x00#8, [], 0x19#8⟩ ∧
    frameChecks (Config.codes.type .get) ⟨0xAA#8, 0x00#8, 0x00#8, [], 0xFD#8⟩ ∧
    frameChecks (Config.codes.type .success) ⟨0xAA#8, 0x00#8, 0x00#8, [], 0x56#8⟩ ∧
    frameChecks (Config.codes.type .failureUnknownRegister) ⟨0xAA#8, 0x00#8, 0x00#8, [], 0x2C#8⟩ ∧
    frameChecks (Config.codes.type .failureBadLength) ⟨0xAA#8, 0x00#8, 0x00#8, [], 0x87#8⟩ ∧
    frameChecks (Config.codes.type .failureNotSupported) ⟨0xAA#8, 0x00#8, 0x00#8, [], 0x63#8⟩ ∧
    frameChecks (Config.codes.type .failureBadPassword) ⟨0xAA#8, 0x00#8, 0x00#8, [], 0xC8#8⟩ ∧
    frameChecks (Config.codes.type .failureBadSignature) ⟨0xAA#8, 0x00#8, 0x00#8, [], 0x97#8⟩ ∧
    frameChecks (Config.codes.type .failureHalError) ⟨0xAA#8, 0x00#8, 0x00#8, [], 0x3C#8⟩ ∧
    frameChecks (Config.codes.type .failureBadParameter) ⟨0xAA#8, 0x00#8, 0x00#8, [], 0xD8#8⟩ ∧
    frameChecks (Config.codes.type .set) ⟨0xAA#8, 0x02#8, 0x80#8, List.replicate 128 0x00#8, 0x61#8⟩ ∧
    frameChecks ((elsewhere []).codes.type .set) ⟨0x00#8, 0x09#8, 0x01#8, [0x77#8], 0xDA#8⟩ := by
  unfold frameChecks; decide +kernel
set_option maxRecDepth 100000 in
theorem witness_FramesThatFailTheChecks :
    (([] : Bytes).length ≤ 128 ∧ 0x70#8 ≠ crc8 ([0xAA#8, (st 0x00#8).codes.type .get, 0x00#8, 0x80#8] ++ [])) ∧
      (([] : Bytes).length ≤ 128 ∧ 0x71#8 = crc8 ([0xAA#8, (st 0x00#8).codes.type .get, 0x00#8, 0x80#8] ++ []) ∧
        ([] : Bytes).length < (0x80#8).toNat) ∧ 128 < (List.replicate 129 0x00#8).length := by decide +kernel
set_option maxRecDepth 100000 in
theorem witness_PresentingAFrameIsDecodingIt :
    (elsewhere []).codes.legal = true ∧ ([] : Bytes).length ≤ 133 ∧ (List.replicate 133 0x00#8).length ≤ 133 := by decide +kernel
set_option maxRecDepth 100000 in
theorem witness_EveryAcceptedOperationAnswersOnce :
    presentable (.decode (List.replicate 133 0x00#8)) = true ∧ presentable .crcRead = true ∧
      presentable (.encode 0x01#8 0x01#8 0x00#8 0x00#8 (List.replicate 256 0x00#8)) = true := by decide +kernel
set_option maxRecDepth 100000 in
theorem witness_CodecNeitherReadsNorWritesState :
    (List.replicate 133 0x00#8).length ≤ 133 ∧ (List.replicate 128 0x00#8).length ≤ 128 ∧ (elsewhere []).codes = moved := by
  decide +kernel
theorem witness_OnlyThreeOperationsAndResetWriteCrc :
    (∃ t, exec (.crcByte 0x31#8) (st 0x00#8) = .next t ∧ t.crc ≠ (st 0x00#8).crc) ∧
      (∃ t, step (withInbox 0x5A#8 [.reset]) = .next t ∧ t.crc ≠ (withInbox 0x5A#8 [.reset]).crc) ∧
      ∃ t, step (withInbox 0x5A#8 [.words (.request [0x00#8])]) = .next t ∧
        t.crc ≠ (withInbox 0x5A#8 [.words (.request [0x00#8])]).crc :=
  ⟨⟨_, rfl, by decide +kernel⟩, ⟨_, rfl, by decide +kernel⟩, ⟨_, rfl, by decide +kernel⟩⟩
/-- P5 of 95_test_vectors.md, step 3, then a read. -/
theorem witness_ErrorsLeaveNoTrace :
    (∃ t, exec (.decode [0xAA#8, 0x02#8, 0x00#8, 0x80#8, 0x71#8]) (st 0x3C#8) = .next t ∧
      t.results = .error .truncated :: (st 0x3C#8).results) ∧ presentable .crcRead = true :=
  ⟨⟨_, rfl, by decide +kernel⟩, rfl⟩
theorem witness_ResetStateStartsAChecksum :
    (cold [.operation .crcRead]).phase = .beforeFirstReset ∧
      (cold [.operation .crcRead]).inbox = [.operation .crcRead] ∧ Arrival.operation .crcRead ≠ .reset := by decide +kernel
theorem witness_ResetEventClearsTheRegister :
    (withInbox 0x5A#8 [.reset]).inbox = [.reset] ∧ (cold [.reset]).inbox = [.reset] := by decide +kernel
theorem witness_ResetAndCrcClrAreInterchangeable : (st 0x5A#8).phase = .running := rfl
set_option maxRecDepth 100000 in
theorem witness_InterfaceRefusals :
    (elsewhere [.words (.request [0x7E#8])]).phase = .running ∧ (elsewhere []).codes.legal = true ∧
      133 < (0x86#8).toNat ∧ 133 < (List.replicate 134 0x00#8).length ∧
      (cold [.operation .crcClr]).phase = .beforeFirstReset ∧ Arrival.operation .crcClr ≠ .reset := by
  decide +kernel
theorem witness_InterfaceRefusals_unassigned : ∀ c : Command, (elsewhere []).codes.cmd c ≠ 0x7E#8 := by
  intro c; cases c <;> decide
theorem witness_StepKeepsDeliveredResultsWellFormed :
    (withInbox 0x00#8 [.words (.request [0x10#8, 0xAA#8, 0x02#8, 0x00#8, 0x80#8, 0x00#8])]).Inv ∧
      ∃ t, step (withInbox 0x00#8 [.words (.request [0x10#8, 0xAA#8, 0x02#8, 0x00#8, 0x80#8, 0x00#8])]) = .next t ∧
        t.results = [.frame [0xAA#8, 0x02#8, 0x00#8, 0x80#8, 0x71#8]] :=
  ⟨⟨by decide +kernel, rfl, by simp [withInbox]⟩, ⟨_, rfl, by decide +kernel⟩⟩
theorem witness_StepRunsTheDecodedOperation :
    (elsewhere [.words (.request [0x42#8, 0x31#8])]).phase = .running ∧
      decodeWith (elsewhere []).codes (.request [0x42#8, 0x31#8]) = .ok (.crcByte 0x31#8) ∧ (st 0x00#8).inbox = [] :=
  ⟨rfl, rfl, rfl⟩
theorem witness_RunExecutesOperationsInIssueOrder :
    let ops := [Instr.crcByte 0x31#8, .encode 0xAA#8 0x02#8 0x00#8 0x80#8 [], .crcRead]
    let s := elsewhere (ops.map fun i => .words (encodeWith moved i))
    s.phase = .running ∧ s.codes.legal = true ∧ (∀ i ∈ ops, i.wellFormed = true) ∧
      s.inbox = ops.map (fun i => .words (encodeWith s.codes i)) ++ [] := by
  decide +kernel
set_option maxRecDepth 100000 in
theorem witness_DecodeOfEncodeIsTheOperation :
    Config.codes.legal = true ∧ (Instr.encode 0x01#8 0x01#8 0x00#8 0x00#8 (List.replicate 255 0x00#8)).wellFormed = true ∧
      (Instr.decode (List.replicate 133 0x00#8)).wellFormed = true ∧
      (Instr.set ⟨0x01#8, 0x00#8, 0xFF#8, List.replicate 128 0x00#8, 0x00#8⟩).wellFormed = true := by decide +kernel
/-- A request, a classified frame, and the frame of V-DEC27, whose type is unlisted under the default codes. -/
theorem witness_AcceptedWordsReencode :
    Config.codes.legal = true ∧ decodeRequestWith Config.codes [0x01#8, 0xA1#8] = .ok (.crcLoad 0xA1#8) ∧
      (Instr.crcLoad 0xA1#8).wellFormed = true ∧
      decodeFrameWith Config.codes [0xAA#8, 0x04#8, 0x7F#8, 0x00#8, 0x82#8] =
        .ok (.ofFrame .failureUnknownRegister ⟨0xAA#8, 0x7F#8, 0x00#8, [], 0x82#8⟩) ∧
      decodeFrameWith Config.codes [0x00#8, 0xFF#8, 0x09#8, 0x01#8, 0x77#8, 0xDA#8] =
        .ok (.decode [0x00#8, 0xFF#8, 0x09#8, 0x01#8, 0x77#8, 0xDA#8]) :=
  ⟨by decide +kernel, rfl, rfl, rfl, rfl⟩
theorem witness_StepKeepsTheParameters :
    (∃ t, exec .crcClr (elsewhere []) = .next t) ∧ ∃ t, step (elsewhere [.reset]) = .next t :=
  ⟨⟨_, rfl⟩, ⟨_, rfl⟩⟩
theorem witness_EffectsDoNotDependOnTheParameters :
    (∀ t f, Instr.crcLoad 0xA1#8 ≠ .ofFrame t f) ∧ presentable (.crcLoad 0xA1#8) = true ∧
      [0xAA#8, 0x02#8, 0x00#8, 0x80#8, 0x71#8].length ≤ 133 ∧ (elsewhere []).phase = .running :=
  ⟨fun t f => by cases t <;> simp [Instr.ofFrame], rfl, by decide, rfl⟩
set_option maxRecDepth 100000 in
/-- For each property: V-S02's largest payload, V-S03's smallest one, a corruption of the source's request frame (V-S06), a
buffer of 4 bytes, and V-DEC07 (`LEN` = 0x80 in 5 bytes). -/
theorem witness_SourceTestablePropertiesHold :
    (List.replicate 128 0x00#8).length ≤ Config.maxPayload ∧ Config.maxPayload < (List.replicate 129 0x00#8).length ∧
      (∃ s, exec (.encode 0xAA#8 0x02#8 0x00#8 0x80#8 []) (st 0x00#8) = .next s ∧
        s = deliver (.frame [0xAA#8, 0x02#8, 0x00#8, 0x80#8, 0x71#8]) (st 0x00#8)) ∧
      [0xAA#8, 0x02#8, 0x00#8, 0x80#8].length < Config.hdrSize + 1 ∧
      crc8 [0xAA#8, 0x02#8, 0x00#8, 0x80#8, 0x71#8] = 0x00#8 ∧
      [0xAA#8, 0x02#8, 0x00#8, 0x80#8, 0x71#8].length - Config.minFrame < (0x80#8).toNat :=
  ⟨by decide +kernel, by decide +kernel, ⟨_, rfl, by decide +kernel⟩, by decide, by decide +kernel, by decide⟩

end Sys2Proof.Tests
end

section
/-! SUPPORT. The checksum as an error-detecting code (40_crc.md R74, R77, R78, R80): it composes over concatenation, a
step is one-to-one in each operand, the residue is zero exactly for the checksum, one changed byte changes it. -/

namespace Sys2Proof.Machine

/-- R74 from any start value. -/
theorem crc8Update_append (c : Byte) (A B : Bytes) : crc8Update c (A ++ B) = crc8Update (crc8Update c A) B := by
  induction A generalizing c with
  | nil => rfl
  | cons a A ih => exact ih (crc8Step c a)

/-- R74. -/
theorem crc8_append (A B : Bytes) : crc8 (A ++ B) = crc8Update (crc8 A) B := by
  rw [crc8_eq, crc8_eq, crc8Update_append]

/-- The inverse of one round of R70: bit 7 of the polynomial is set, so bit 7 of the result is the bit shifted out. -/
def crcUnround (y : Byte) : Byte :=
  if y.getLsbD 7 then ((y ^^^ Config.crcPolyReflected) <<< 1) ||| 1#8 else y <<< 1

theorem crcUnround_crcRound : Function.LeftInverse crcUnround crcRound := by
  unfold Function.LeftInverse
  decide

theorem repeatTimes_injective {f : Byte → Byte} (hf : Function.Injective f) (n : Nat) :
    Function.Injective (repeatTimes n f) := by
  induction n with
  | zero => exact Function.injective_id
  | succ n ih => exact ih.comp hf

/-- R77: a step is one-to-one in the exclusive-or of its operands. -/
theorem crc8Step_eq_iff (c₁ b₁ c₂ b₂ : Byte) : crc8Step c₁ b₁ = crc8Step c₂ b₂ ↔ c₁ ^^^ b₁ = c₂ ^^^ b₂ :=
  (repeatTimes_injective crcUnround_crcRound.injective 8).eq_iff

theorem crc8Step_left_inj (c₁ c₂ b : Byte) : crc8Step c₁ b = crc8Step c₂ b ↔ c₁ = c₂ := by
  rw [crc8Step_eq_iff, BitVec.xor_left_inj]

theorem crc8Step_right_inj (c b₁ b₂ : Byte) : crc8Step c b₁ = crc8Step c b₂ ↔ b₁ = b₂ := by
  rw [crc8Step_eq_iff, BitVec.xor_right_inj]

theorem crc8Step_self (c : Byte) : crc8Step c c = 0x00#8 := by
  rw [crc8Step_xor, BitVec.xor_self]
  rfl

/-- R77: a step gives 0x00 exactly when the byte equals the running value. -/
theorem crc8Step_eq_zero_iff (c b : Byte) : crc8Step c b = 0x00#8 ↔ b = c := by
  rw [← crc8Step_self c, crc8Step_right_inj]

/-- Different running values never meet again. -/
theorem crc8Update_left_inj (c₁ c₂ : Byte) (B : Bytes) : crc8Update c₁ B = crc8Update c₂ B ↔ c₁ = c₂ := by
  induction B generalizing c₁ c₂ with
  | nil => rfl
  | cons b B ih => rw [crc8Update_cons, crc8Update_cons, ih, crc8Step_left_inj]

/-- R78. -/
theorem crc8_concat_eq_zero_iff (M : Bytes) (t : Byte) : crc8 (M ++ [t]) = 0x00#8 ↔ t = crc8 M := by
  rw [crc8_append, crc8Update_cons, crc8Update_nil, crc8Step_eq_zero_iff]

/-- R80 from any start value: writing a byte into a sequence keeps its checksum only if the byte was there before. -/
theorem getElem?_of_crc8Update_set_eq {c : Byte} {B : Bytes} {i : Nat} {b : Byte} (hi : i < B.length)
    (h : crc8Update c (B.set i b) = crc8Update c B) : B[i]? = some b := by
  induction B generalizing c i with
  | nil => cases hi
  | cons a B ih =>
    cases i with
    | zero =>
      have hstep : crc8Step c b = crc8Step c a := (crc8Update_left_inj _ _ B).mp h
      simpa using ((crc8Step_right_inj c b a).mp hstep).symm
    | succ i => exact ih (Nat.lt_of_succ_lt_succ hi) h

/-- R80: a sequence changed in one byte has another checksum. -/
theorem crc8_set_ne {B : Bytes} {i : Nat} {b : Byte} (hi : i < B.length) (hb : B[i]? ≠ some b) :
    crc8 (B.set i b) ≠ crc8 B := by
  rw [crc8_eq, crc8_eq]
  exact fun h => hb (getElem?_of_crc8Update_set_eq hi h)

end Sys2Proof.Machine
end

section
/-! SUPPORT. What the codec's operations answer, by the shape and the residue of their operands (41_encoder.md R90 to
R94, 42_decoder.md R101 to R103, 40_crc.md R78). -/

namespace Sys2Proof.Machine

/-! ### The pure functions -/

/-- The length of a buffer that can be presented fits one byte (R41, R58). -/
theorem toNat_ofNat_of_le_rxMax {n : Nat} (h : n ≤ 133) : (BitVec.ofNat 8 n).toNat = n := by
  rw [BitVec.toNat_ofNat, Nat.mod_eq_of_lt (by omega)]

theorem tooLarge_of_length {payload : Bytes} (reqLen : Byte) (h : 128 < payload.length) :
    tooLarge reqLen payload = true :=
  (tooLarge_iff reqLen payload).mpr (.inl h)

/-- The four-operand `encode` requests no length, so only the payload can be too long. -/
theorem tooLarge_zero_of_length {payload : Bytes} (h : payload.length ≤ 128) : tooLarge 0x00#8 payload = false := by
  rw [← Bool.not_eq_true, tooLarge_iff]
  rintro (hl | ⟨-, hr⟩)
  · omega
  · exact absurd hr (by decide)

/-- The four-operand `encode` declares the payload's length, whether or not there is a payload. -/
theorem lenField_zero (payload : Bytes) : lenField 0x00#8 payload = BitVec.ofNat 8 payload.length := by
  cases payload <;> simp [lenField]

/-- Every frame that is built is a sequence of 4 to 132 bytes followed by its checksum (R90, R94). -/
theorem encodeFrame_ok {dev ty reg reqLen : Byte} {payload F : Bytes}
    (h : encodeFrame dev ty reg reqLen payload = .ok F) :
    payload.length ≤ 128 ∧ F = [dev, ty, reg, lenField reqLen payload] ++ payload ++
      [crc8 ([dev, ty, reg, lenField reqLen payload] ++ payload)] := by
  cases hl : tooLarge reqLen payload with
  | true => simp [encodeFrame_of_tooLarge _ _ _ _ _ hl] at h
  | false =>
    rw [encodeFrame_of_fits _ _ _ _ _ hl, ← crc8_append] at h
    have hfit : ¬ 128 < payload.length := fun hc => by simp [tooLarge_of_length reqLen hc] at hl
    exact ⟨by omega, (Except.ok.inj h).symm⟩

/-- A buffer whose checksum byte is wrong, which is one with a nonzero residue (R102). -/
theorem decodePacket_of_residue_ne {raw : Bytes} (hn : 5 ≤ raw.length) (h : crc8 raw ≠ 0x00#8) :
    decodePacket raw = .error .checksumMismatch := by
  obtain ⟨dev, ty, reg, len, body, c, rfl⟩ := buffer_shape raw hn
  rw [decodePacket_frame, if_pos ((crc8_concat_eq_zero_iff _ _).not.mp h)]

/-- A buffer whose checksum matches and whose declared length does not fit (R103). -/
theorem decodePacket_of_unfitting {raw : Bytes} {len : Byte} (hn : 5 ≤ raw.length) (hc : crc8 raw = 0x00#8)
    (hlen : raw[3]? = some len) (h : raw.length - 5 < len.toNat) : decodePacket raw = .error .truncated := by
  obtain ⟨dev, ty, reg, len', body, c, rfl⟩ := buffer_shape raw hn
  obtain rfl : len' = len := by simpa using hlen
  have hbody : body.length < len'.toNat := by simpa using h
  rw [decodePacket_frame, if_neg (not_not.mpr ((crc8_concat_eq_zero_iff _ _).mp hc)), if_pos hbody]

/-- A buffer of exactly its declared length whose checksum matches (R111). -/
theorem decodePacket_of_exact (dev ty reg len : Byte) {payload : Bytes} (h : payload.length = len.toNat) :
    decodePacket ([dev, ty, reg, len] ++ payload ++ [crc8 ([dev, ty, reg, len] ++ payload)]) =
      .ok ⟨dev, ty, reg, len, payload⟩ := by
  rw [decodePacket_frame, if_neg (not_not.mpr rfl), if_neg (by omega), ← h, List.take_length]

/-! ### The operations -/

theorem exec_encode_of_ok {dev ty reg reqLen : Byte} {payload F : Bytes}
    (h : encodeFrame dev ty reg reqLen payload = .ok F) (s : State) :
    exec (.encode dev ty reg reqLen payload) s = .next (deliver (.frame F) s) := by
  simp [exec, execEncode, h, Except.map, Except.mapError, conclude]

theorem exec_encode_of_tooLarge {dev ty reg reqLen : Byte} {payload : Bytes} (h : tooLarge reqLen payload = true)
    (s : State) : exec (.encode dev ty reg reqLen payload) s = .next (raiseError .payloadTooLarge s) := by
  simp [exec, execEncode, encodeFrame_of_tooLarge _ _ _ _ _ h, Except.map, Except.mapError, conclude,
    EncodeError.kind]

/-- A frame that `ENCODE` delivers is the one `encode` builds. -/
theorem encodeFrame_of_exec {dev ty reg reqLen : Byte} {payload F : Bytes} {s : State}
    (h : exec (.encode dev ty reg reqLen payload) s = .next (deliver (.frame F) s)) :
    encodeFrame dev ty reg reqLen payload = .ok F := by
  rcases execEncode_cases dev ty reg reqLen payload s with ⟨G, hG, hx⟩ | ⟨-, hx⟩
  · have heq : G = F := by simpa [deliver] using hx.symm.trans h
    rw [hG, heq]
  · have hne := hx.symm.trans h
    simp [raiseError, deliver] at hne

theorem exec_decode_of_ok {raw : Bytes} {p : Packet} (hn : raw.length ≤ 133) (h : decodePacket raw = .ok p)
    (s : State) : exec (.decode raw) s = .next (deliver (.packet p) s) := by
  simp [exec, execDecode, runDecode, Nat.not_lt.mpr hn, h, Except.map, Except.mapError, conclude]

theorem exec_decode_of_error {raw : Bytes} {e : DecodeError} (hn : raw.length ≤ 133)
    (h : decodePacket raw = .error e) (s : State) : exec (.decode raw) s = .next (raiseError e.kind s) := by
  simp [exec, execDecode, runDecode, Nat.not_lt.mpr hn, h, Except.map, Except.mapError, conclude]

end Sys2Proof.Machine
end

section
/-! PROOF. The source's five testable properties (00_scope.md R15), one lemma each. -/

namespace Sys2Proof.Machine

/-- V-S02: what the four-operand `ENCODE` builds, `DECODE` takes apart again. -/
theorem encodeData_roundTrips (dev ty reg : Byte) (payload : Bytes) (s : State) (hp : payload.length ≤ 128) :
    ∃ F, exec (.encode dev ty reg 0x00#8 payload) s = .next (deliver (.frame F) s) ∧
      exec (.decode F) s =
        .next (deliver (.packet ⟨dev, ty, reg, BitVec.ofNat 8 payload.length, payload⟩) s) := by
  have hF := encodeFrame_of_fits dev ty reg _ payload (tooLarge_zero_of_length hp)
  rw [← crc8_append, lenField_zero] at hF
  have hlen : payload.length = (BitVec.ofNat 8 payload.length).toNat := (toNat_ofNat_of_le_rxMax (by omega)).symm
  refine ⟨_, exec_encode_of_ok hF s, exec_decode_of_ok ?_ (decodePacket_of_exact dev ty reg _ hlen) s⟩
  simp only [List.length_append, List.length_cons, List.length_nil]
  omega

/-- V-S04: a frame that `ENCODE` built, changed in one byte, is `ChecksumMismatch`: its residue was 0x00 and the change
moves it. -/
theorem corruptedFrame_checksumMismatch {dev ty reg reqLen : Byte} {payload F : Bytes} {i : Nat} {b : Byte} {s : State}
    (h : exec (.encode dev ty reg reqLen payload) s = .next (deliver (.frame F) s)) (hi : i < F.length)
    (hb : F[i]? ≠ some b) : exec (.decode (F.set i b)) s = .next (raiseError .checksumMismatch s) := by
  obtain ⟨hp, hF⟩ := encodeFrame_ok (encodeFrame_of_exec h)
  have hlen : F.length = 5 + payload.length := by
    rw [hF]
    simp only [List.length_append, List.length_cons, List.length_nil]
    omega
  have hres : crc8 F = 0x00#8 := by rw [hF, crc8_concat_eq_zero_iff]
  have hbad : crc8 (F.set i b) ≠ 0x00#8 := hres ▸ crc8_set_ne hi hb
  have hset : (F.set i b).length = F.length := List.length_set
  exact exec_decode_of_error (by omega) (decodePacket_of_residue_ne (by omega) hbad) s

/-- Settles O56: each property from the fact about the checksum, or about the buffer's shape and residue, that it turns
on. -/
theorem sourceTestablePropertiesHold : Obligations.SourceTestablePropertiesHold where
  checksumComposes A B := (crc8_append A B).symm
  roundTrips := encodeData_roundTrips
  tooLargeFails _ _ _ reqLen _ s h := exec_encode_of_tooLarge (tooLarge_of_length reqLen h) s
  corruptionDetected _ _ _ _ _ _ _ _ _ h hi hb := corruptedFrame_checksumMismatch h hi hb
  shortTruncated raw s h := by
    have hshort : raw.length < 5 := h
    exact exec_decode_of_error (by omega) (decodePacket_short raw hshort) s
  unfittingTruncated _ _ s hmin hmax hc hlen h :=
    exec_decode_of_error hmax (decodePacket_of_unfitting hmin hc hlen h) s

end Sys2Proof.Machine
end

section
/-! PROOF. No operation and no step changes the parameters (00_scope.md R7, 70_reset_and_hazards.md R142). -/

namespace Sys2Proof.Machine

/-- What `DECODE` or a frame goes on with: the same state with one more result. -/
theorem runDecode_next {raw : Bytes} {s t : State} (h : runDecode raw s = .next t) : ∃ r, t = deliver r s := by
  rcases runDecode_cases raw s with ⟨-, hx⟩ | ⟨-, p, -, hx⟩ | ⟨-, e, -, hx⟩
  · simp [hx] at h
  · exact ⟨.packet p, by simpa [hx] using h.symm⟩
  · exact ⟨.error e.kind, by simpa [hx, raiseError] using h.symm⟩

/-- What `ENCODE` goes on with: the same state with one more result. -/
theorem execEncode_next {dev ty reg reqLen : Byte} {payload : Bytes} {s t : State}
    (h : execEncode dev ty reg reqLen payload s = .next t) : ∃ r, t = deliver r s := by
  rcases execEncode_cases dev ty reg reqLen payload s with ⟨F, -, hx⟩ | ⟨-, hx⟩
  · exact ⟨.frame F, by simpa [hx] using h.symm⟩
  · exact ⟨.error .payloadTooLarge, by simpa [hx, raiseError] using h.symm⟩

/-- All that an operation can do to the state: write the register and deliver one result. -/
theorem exec_next {i : Instr} {s t : State} (h : exec i s = .next t) : ∃ c r, t = deliver r (writeCrc c s) := by
  cases i with
  | crcClr | crcLoad v | crcByte b => exact ⟨_, _, (Host.Outcome.next.inj h).symm⟩
  | crcRead => exact ⟨s.crc, _, (Host.Outcome.next.inj h).symm⟩
  | encode dev ty reg reqLen payload => exact ⟨s.crc, execEncode_next h⟩
  | decode raw => exact ⟨s.crc, runDecode_next h⟩
  | set f | get f | success f | failureUnknownRegister f | failureBadLength f | failureNotSupported f
  | failureBadPassword f | failureBadSignature f | failureHalError f | failureBadParameter f =>
    exact ⟨s.crc, runDecode_next h⟩

theorem exec_codes {i : Instr} {s t : State} (h : exec i s = .next t) : t.codes = s.codes := by
  obtain ⟨c, r, rfl⟩ := exec_next h
  simp

/-- Settles O54: an operation writes only the register and the results, and a step besides takes an arrival off the
port. -/
theorem stepKeepsTheParameters : Obligations.StepKeepsTheParameters := by
  refine ⟨fun i s t => exec_codes, fun s t h => ?_⟩
  rcases step_next_cases s t h with ⟨-, rfl⟩ | ⟨rest, -, rfl⟩ | ⟨i, a, rest, -, -, -, hx⟩
  · rfl
  · simp
  · simpa using exec_codes hx

end Sys2Proof.Machine
end

section
/-! PROOF. A buffer handed over as a frame steps as its `DECODE` request does (00_scope.md R6 (b), assumptions 7
and 8). -/

namespace Sys2Proof

/-- A buffer that is cut into a frame's fields is that frame's bytes. -/
theorem bytes_of_splitFrame {raw : Bytes} {ty : Byte} {f : FrameFields} (h : splitFrame raw = some (ty, f)) :
    raw = f.bytes ty := by
  unfold splitFrame at h
  split at h
  · split at h
    next hlast =>
      obtain ⟨rfl, rfl⟩ := h
      simp [FrameFields.bytes, List.dropLast_append_getLast? _ hlast]
    next => cases h
  · cases h

/-- A buffer that is classified is the bytes of a frame of its type. -/
theorem bytes_of_classifyFrameWith {k : Codes} {raw : Bytes} {t : PacketType} {f : FrameFields}
    (h : classifyFrameWith k raw = some (t, f)) : raw = f.bytes (k.type t) := by
  unfold classifyFrameWith at h
  split at h
  next ty g hs =>
    obtain ⟨t', ht, hp⟩ := Option.map_eq_some_iff.mp h
    obtain ⟨rfl, rfl⟩ := hp
    rw [PacketType.type_of_ofCode ht]
    exact bytes_of_splitFrame hs
  next => cases h

/-- The bytes of a `DECODE` request (R58) read as that `DECODE`. -/
theorem decodeRequestWith_decode {k : Codes} (hk : k.legal = true) {raw : Bytes} (hn : raw.length ≤ 133) :
    decodeRequestWith k ([k.cmd .decode, BitVec.ofNat 8 raw.length] ++ raw) = .ok (.decode raw) := by
  simp [decodeRequestWith, Command.ofCode_cmd hk, decodeOperands, sizedOperand,
    Machine.toNat_ofNat_of_le_rxMax hn, hn]

namespace Machine

/-- A frame that can be presented reads as an operation whose effect is the decoder's on its bytes, whether or not its
type is listed. -/
theorem decodeFrameWith_runs_runDecode (k : Codes) {raw : Bytes} (hn : raw.length ≤ 133) :
    ∃ i, decodeFrameWith k raw = .ok i ∧ ∀ s : State, s.codes = k → exec i s = runDecode raw s := by
  unfold decodeFrameWith
  rw [if_neg (Nat.not_lt.mpr hn)]
  cases hc : classifyFrameWith k raw with
  | none => exact ⟨.decode raw, rfl, fun _ _ => rfl⟩
  | some tf =>
    obtain ⟨t, f⟩ := tf
    refine ⟨.ofFrame t f, rfl, fun s hs => ?_⟩
    rw [exec_ofFrame, receiveFrame_eq, hs, ← bytes_of_classifyFrameWith hc]

/-- One step with bytes at the port that read as an operation (R128, R140). -/
theorem step_of_decodeWith {s : State} {w : Words} {i : Instr} (hd : decodeWith s.codes w = .ok i)
    (rest : List Arrival) :
    step { s with inbox := .words w :: rest } =
      if s.phase = .running then exec i { s with inbox := rest } else .refused .beforeFirstReset := by
  cases s.phase <;> simp [step, fetch, readArrival, hd, Except.map]

/-- Settles O37: both read as an operation whose effect is the decoder's on the buffer. -/
theorem presentingAFrameIsDecodingIt : Obligations.PresentingAFrameIsDecodingIt := by
  intro raw rest s hk hn request
  have hrequest : decodeWith s.codes request = .ok (.decode raw) := decodeRequestWith_decode hk hn
  obtain ⟨i, hframe, hrun⟩ := decodeFrameWith_runs_runDecode s.codes hn
  have hexec : exec i { s with inbox := rest } = exec (.decode raw) { s with inbox := rest } := hrun _ rfl
  rw [step_of_decodeWith (w := .frame raw) hframe, step_of_decodeWith hrequest, hexec]

end Machine

end Sys2Proof
end

section
/-! SUPPORT. What the codec can deliver: a well-formed result and no other change (41_encoder.md R90 to R95, 42_decoder.md
R100 to R112, 10_state.md R28). -/

namespace Sys2Proof.Machine

/-! ### The pure functions -/

theorem frame_wf_iff (F : Bytes) :
    (Result.frame F).wf = true ↔
      5 ≤ F.length ∧ F.length ≤ 133 ∧ (∃ len, F[3]? = some len ∧ len.toNat ≤ 128) ∧ crc8 F = 0x00#8 := by
  simp only [Result.wf, Bool.and_eq_true, decide_eq_true_iff, beq_iff_eq, Option.any_eq_true, and_assoc]
  exact Iff.rfl

theorem packet_wf_iff (p : Packet) :
    (Result.packet p).wf = true ↔ p.payload.length = p.len.toNat ∧ p.len.toNat ≤ 128 := by
  simp [Result.wf]

/-- A header that declares at most 128, at most 128 bytes after it, and the checksum of all of that (R95). -/
theorem frame_wf (dev ty reg : Byte) {len : Byte} {body : Bytes} (hlen : len.toNat ≤ 128) (hbody : body.length ≤ 128) :
    (Result.frame ([dev, ty, reg, len] ++ body ++ [crc8 ([dev, ty, reg, len] ++ body)])).wf = true := by
  have hn : ([dev, ty, reg, len] ++ body ++ [crc8 ([dev, ty, reg, len] ++ body)]).length = body.length + 5 := by simp
  exact (frame_wf_iff _).mpr
    ⟨by omega, by omega, ⟨len, by simp, hlen⟩, (crc8_concat_eq_zero_iff _ _).mpr rfl⟩

theorem encodeFrame_ok_wf {dev ty reg reqLen : Byte} {payload F : Bytes}
    (h : encodeFrame dev ty reg reqLen payload = .ok F) : (Result.frame F).wf = true := by
  obtain ⟨hp, rfl⟩ := encodeFrame_ok h
  have hfits : tooLarge reqLen payload = false := by
    by_contra hl
    rw [encodeFrame_of_tooLarge _ _ _ _ _ (eq_true_of_ne_false hl)] at h
    cases h
  exact frame_wf dev ty reg (lenField_of_fits reqLen payload hfits).1 hp

/-- Every packet is read off a header, at least as many bytes as it declares, and the checksum of all of that (R111). -/
theorem decodePacket_ok {raw : Bytes} {p : Packet} (h : decodePacket raw = .ok p) :
    ∃ body : Bytes, raw = [p.dev, p.type, p.reg, p.len] ++ body ++ [crc8 ([p.dev, p.type, p.reg, p.len] ++ body)] ∧
      p.len.toNat ≤ body.length ∧ p.payload = body.take p.len.toNat := by
  by_cases hn : raw.length < 5
  · rw [decodePacket_short raw hn] at h
    cases h
  · obtain ⟨dev, ty, reg, len, body, c, rfl⟩ := buffer_shape raw (by omega)
    rw [decodePacket_frame] at h
    split at h
    · cases h
    next hc =>
      split at h
      · cases h
      next hl =>
        cases h
        exact ⟨body, by rw [← not_not.mp hc], Nat.not_lt.mp hl, rfl⟩

theorem decodePacket_ok_wf {raw : Bytes} {p : Packet} (hn : raw.length ≤ 133) (h : decodePacket raw = .ok p) :
    (Result.packet p).wf = true := by
  obtain ⟨body, hraw, hlen, hpayload⟩ := decodePacket_ok h
  have hbody : raw.length = body.length + 5 := by simp [hraw]
  rw [packet_wf_iff, hpayload, List.length_take]
  omega

/-! ### The operations -/

theorem execEncode_next_wf {dev ty reg reqLen : Byte} {payload : Bytes} {s t : State}
    (h : execEncode dev ty reg reqLen payload s = .next t) : ∃ r : Result, r.wf = true ∧ t = deliver r s := by
  rcases execEncode_cases dev ty reg reqLen payload s with ⟨F, hF, hx⟩ | ⟨-, hx⟩
  · exact ⟨.frame F, encodeFrame_ok_wf hF, by simpa [hx] using h.symm⟩
  · exact ⟨.error .payloadTooLarge, rfl, by simpa [hx, raiseError] using h.symm⟩

theorem runDecode_next_wf {raw : Bytes} {s t : State} (h : runDecode raw s = .next t) :
    ∃ r : Result, r.wf = true ∧ t = deliver r s := by
  rcases runDecode_cases raw s with ⟨-, hx⟩ | ⟨hn, p, hp, hx⟩ | ⟨-, e, -, hx⟩
  · simp [hx] at h
  · exact ⟨.packet p, decodePacket_ok_wf hn hp, by simpa [hx] using h.symm⟩
  · exact ⟨.error e.kind, rfl, by simpa [hx, raiseError] using h.symm⟩

/-- All that an operation of the codec can do: deliver one well-formed result. -/
theorem exec_codec_next {i : Instr} {s t : State} (hi : isCodec i = true) (h : exec i s = .next t) :
    ∃ r : Result, r.wf = true ∧ t = deliver r s := by
  cases i with
  | crcClr | crcLoad v | crcByte b | crcRead => cases hi
  | encode dev ty reg reqLen payload => exact execEncode_next_wf h
  | decode raw => exact runDecode_next_wf h
  | set f | get f | success f | failureUnknownRegister f | failureBadLength f | failureNotSupported f
  | failureBadPassword f | failureBadSignature f | failureHalError f | failureBadParameter f =>
    exact runDecode_next_wf h

end Sys2Proof.Machine
end

section
/-! PROOF. The invariant of a safe run: it holds after reset and every step keeps it (10_state.md R21, R28). -/

namespace Sys2Proof.Machine

/-- Every operation delivers one well-formed result: the register is a byte, and the codec's answers are well formed. -/
theorem exec_delivers_wf {i : Instr} {s t : State} (h : exec i s = .next t) :
    ∃ r : Result, r.wf = true ∧ t.results = r :: s.results := by
  cases i with
  | crcClr | crcLoad v | crcByte b =>
    obtain rfl := Host.Outcome.next.inj h
    exact ⟨.ok, rfl, rfl⟩
  | crcRead =>
    obtain rfl := Host.Outcome.next.inj h
    exact ⟨.byte s.crc, rfl, rfl⟩
  | _ =>
    obtain ⟨r, hr, rfl⟩ := exec_codec_next rfl h
    exact ⟨r, hr, rfl⟩

theorem exec_phase {i : Instr} {s t : State} (h : exec i s = .next t) : t.phase = s.phase := by
  obtain ⟨c, r, rfl⟩ := exec_next h
  simp

theorem exec_inv {i : Instr} {s t : State} (hs : s.Inv) (h : exec i s = .next t) : t.Inv := by
  obtain ⟨hcodes, hphase, hresults⟩ := hs
  obtain ⟨r, hr, ht⟩ := exec_delivers_wf h
  refine ⟨exec_codes h ▸ hcodes, exec_phase h ▸ hphase, ?_⟩
  rw [ht, List.forall_mem_cons]
  exact ⟨hr, hresults⟩

/-- The invariant does not read what is waiting at the port. -/
theorem inv_inbox {s : State} (hs : s.Inv) (rest : List Arrival) : State.Inv { s with inbox := rest } := hs

theorem applyReset_inv {s : State} (hs : s.Inv) : (applyReset s).Inv := by
  obtain ⟨hcodes, -, hresults⟩ := hs
  exact ⟨hcodes, rfl, hresults⟩

/-- Settles O46: an idle step changes nothing, a reset delivers nothing, and an operation delivers one well-formed
result. -/
theorem stepKeepsDeliveredResultsWellFormed : Obligations.StepKeepsDeliveredResultsWellFormed := by
  intro s t hs h
  rcases step_next_cases s t h with ⟨-, rfl⟩ | ⟨rest, -, rfl⟩ | ⟨i, a, rest, -, -, -, hx⟩
  · exact hs
  · exact applyReset_inv (inv_inbox hs rest)
  · exact exec_inv (inv_inbox hs rest) hx

/-- Settles O47: the default codes are pairwise different, and nothing has been delivered. -/
theorem resetMeetsTheInvariant : Obligations.ResetMeetsTheInvariant :=
  ⟨by decide, reset_phase, by simp⟩

end Sys2Proof.Machine
end

section
/-! PROOF. Who writes the register (10_state.md R20). -/

namespace Sys2Proof.Machine

/-- R20 for an operation. -/
theorem crcWriter_of_exec_crc_ne {i : Instr} {s t : State} (h : exec i s = .next t) (hc : t.crc ≠ s.crc) :
    i = .crcClr ∨ (∃ v, i = .crcLoad v) ∨ ∃ b, i = .crcByte b := by
  cases i with
  | crcClr => exact .inl rfl
  | crcLoad v => exact .inr (.inl ⟨v, rfl⟩)
  | crcByte b => exact .inr (.inr ⟨b, rfl⟩)
  | crcRead =>
    obtain rfl := Host.Outcome.next.inj h
    exact absurd rfl hc
  | _ =>
    obtain ⟨r, -, rfl⟩ := exec_codec_next rfl h
    exact absurd rfl hc

/-- Settles O40: `CRC.READ` and the codec only deliver a result, and a step is idle, a reset or an operation. -/
theorem onlyThreeOperationsAndResetWriteCrc : Obligations.OnlyThreeOperationsAndResetWriteCrc := by
  refine ⟨fun i s t => crcWriter_of_exec_crc_ne, fun s t h hc => ?_⟩
  rcases step_next_cases s t h with ⟨-, rfl⟩ | ⟨rest, hin, -⟩ | ⟨i, a, rest, -, -, hf, hx⟩
  · exact absurd rfl hc
  · exact ⟨rest, .inl hin⟩
  · exact ⟨rest, .inr ⟨i, _, hf, crcWriter_of_exec_crc_ne hx hc⟩⟩

end Sys2Proof.Machine
end

section
/-! PROOF. Operations issued directly after reset, and before the first one (10_state.md R21, 60_exceptions.md R128). -/

namespace Sys2Proof.Machine

/-- Operations that all complete are followed by the rest of the sequence, in the state they leave (R44). -/
theorem issue_append_of_next {ops : List Instr} {s t : State} (h : issue ops s = .next t) (rest : List Instr) :
    issue (ops ++ rest) s = issue rest t := by
  induction ops generalizing s with
  | nil =>
    obtain rfl := Host.Outcome.next.inj h
    rfl
  | cons i ops ih =>
    rw [issue] at h
    rw [List.cons_append, issue]
    cases hx : exec i s with
    | next u =>
      rw [hx] at h
      exact ih h
    | fault f => cases f
    | refused r => simp [hx] at h

/-- A run of `CRC.BYTE` operations continues the checksum over their operands (R83). -/
theorem issue_crcBytes (B : Bytes) (s : State) :
    ∃ t, issue (B.map .crcByte) s = .next t ∧ t.crc = crc8Update s.crc B := by
  induction B generalizing s with
  | nil => exact ⟨s, rfl, rfl⟩
  | cons b B ih => exact ih (deliver .ok (writeCrc (crc8Step s.crc b) s))

/-- R128: a request issued before the first reset. -/
theorem step_beforeFirstReset {s : State} {a : Arrival} {rest : List Arrival} (hp : s.phase = .beforeFirstReset)
    (hin : s.inbox = a :: rest) (ha : a ≠ .reset) : step s = .refused .beforeFirstReset := by
  have hf : fetch s = .refuse .beforeFirstReset := by
    rcases fetch_cases s with ⟨hb, -⟩ | ⟨_, hb, -⟩ | ⟨_, _, -, -, -, hf⟩ | ⟨_, _, -, hr, -⟩ | ⟨_, _, _, -, hr, -⟩ |
      ⟨_, _, _, -, hr, -⟩
    · simp [hin] at hb
    · exact absurd (List.cons.inj (hin.symm.trans hb)).1 ha
    · exact hf
    all_goals simp [hp] at hr
  rw [step, hf]

/-- Settles O42: the register is `CRC_INIT` after reset, so `CRC.BYTE` operations on `B` leave `crc8(B)` in it, which
`CRC.READ` delivers. -/
theorem resetStateStartsAChecksum : Obligations.ResetStateStartsAChecksum := by
  refine ⟨reset_crc, fun B => ?_, fun s a rest => step_beforeFirstReset⟩
  obtain ⟨t, ht, hc⟩ := issue_crcBytes B State.reset
  refine ⟨deliver (.byte t.crc) t, issue_append_of_next ht [.crcRead], ?_⟩
  rw [deliver_results, List.head?_cons, hc, reset_crc, ← crc8_eq]

end Sys2Proof.Machine
end

section
/-! SUPPORT. Under legal parameters the words of a well-formed operation read as that operation (30_encoding.md R50, R55,
R58, R59). -/

namespace Sys2Proof

/-- A byte-sequence operand of the announced length is taken whole (R58). -/
theorem sizedOperand_of_length (mk : Bytes → Instr) {n : Nat} {rest : Bytes} (h : n = rest.length) :
    sizedOperand mk n rest = .ok (mk rest) := by
  simp [sizedOperand, h]

/-- A well-formed frame can be presented (R50, R41). -/
theorem FrameFields.bytes_length_le {f : FrameFields} (hf : f.wellFormed = true) (ty : Byte) :
    (f.bytes ty).length ≤ 133 := by
  have hbody : f.body.length ≤ 128 := of_decide_eq_true hf
  rw [Laws.EncodedLength.frameBytes_length]
  omega

/-- The bytes of a frame of a listed type (R50, R55) read as the operation of that type. -/
theorem decodeFrameWith_bytes {k : Codes} (hk : k.legal = true) (t : PacketType) {f : FrameFields}
    (hf : f.wellFormed = true) : decodeFrameWith k (f.bytes (k.type t)) = .ok (.ofFrame t f) := by
  have hlen : ¬ Config.rxMax < (f.bytes (k.type t)).length := Nat.not_lt.mpr (FrameFields.bytes_length_le hf _)
  simp [decodeFrameWith, hlen, classifyFrameWith, splitFrame_bytes, PacketType.ofCode_type hk]

/-- Decoding undoes encoding: the command byte or the type byte names the constructor, and the operands follow it. -/
theorem decodeWith_encodeWith {k : Codes} (hk : k.legal = true) {i : Instr} (hi : i.wellFormed = true) :
    decodeWith k (encodeWith k i) = .ok i := by
  cases i with
  | crcClr | crcRead => simp [encodeWith, decodeWith, decodeRequestWith, Command.ofCode_cmd hk, noOperand]
  | crcLoad v | crcByte v => simp [encodeWith, decodeWith, decodeRequestWith, Command.ofCode_cmd hk, oneOperand]
  | encode dev ty reg reqLen payload =>
    have hp : payload.length ≤ 255 := of_decide_eq_true hi
    have hlen : (BitVec.ofNat 8 payload.length).toNat = payload.length := by
      rw [BitVec.toNat_ofNat, Nat.mod_eq_of_lt (by omega)]
    simp only [encodeWith, decodeWith, decodeRequestWith, List.cons_append, List.nil_append,
      Command.ofCode_cmd hk, encodeOperands, sizedOperand_of_length _ hlen]
  | decode raw => exact decodeRequestWith_decode hk (of_decide_eq_true hi)
  | set f | get f | success f | failureUnknownRegister f | failureBadLength f | failureNotSupported f
  | failureBadPassword f | failureBadSignature f | failureHalError f | failureBadParameter f =>
    exact decodeFrameWith_bytes hk _ hi

end Sys2Proof
end

section
/-! SUPPORT. An operation the interface accepts completes, and what it does is fixed by the register and the parameters
(10_state.md R26, 60_exceptions.md R122). -/

namespace Sys2Proof.Machine

/-- A well-formed operation is accepted (R128). -/
theorem presentable_of_wellFormed {i : Instr} (hi : i.wellFormed = true) : presentable i = true := by
  cases i with
  | encode => rfl
  | _ => exact hi

/-- A buffer that can be presented gets one result, the same in every state (R112). -/
theorem runDecode_delivers {raw : Bytes} (hn : raw.length ≤ 133) :
    ∃ r, ∀ s, runDecode raw s = .next (deliver r s) := by
  cases hd : decodePacket raw with
  | ok p => exact ⟨.packet p, exec_decode_of_ok hn hd⟩
  | error e => exact ⟨.error e.kind, exec_decode_of_error hn hd⟩

/-- `ENCODE` gets one result, the same in every state (R96). -/
theorem execEncode_delivers (dev ty reg reqLen : Byte) (payload : Bytes) :
    ∃ r, ∀ s, execEncode dev ty reg reqLen payload s = .next (deliver r s) := by
  unfold execEncode
  cases encodeFrame dev ty reg reqLen payload with
  | ok F => exact ⟨.frame F, fun _ => rfl⟩
  | error e => exact ⟨.error e.kind, fun _ => rfl⟩

/-- A frame that can be presented gets one result, the same in every state of a machine with these parameters. -/
theorem receiveFrame_delivers (k : Codes) (t : PacketType) {f : FrameFields} (hf : f.wellFormed = true) :
    ∃ r, ∀ s : State, s.codes = k → receiveFrame t f s = .next (deliver r s) := by
  obtain ⟨r, hr⟩ := runDecode_delivers (FrameFields.bytes_length_le hf (k.type t))
  exact ⟨r, fun s hs => by rw [receiveFrame_eq, hs, hr]⟩

/-- An accepted operation completes: the value it writes to the register and the result it delivers depend on the
register and the parameters only. -/
theorem exec_of_presentable {i : Instr} (hi : presentable i = true) (k : Codes) (c : Byte) :
    ∃ c' r, ∀ s : State, s.codes = k → s.crc = c → exec i s = .next (deliver r (writeCrc c' s)) := by
  cases i with
  | crcClr => exact ⟨Config.crcInit, .ok, fun _ _ _ => rfl⟩
  | crcLoad v => exact ⟨v, .ok, fun _ _ _ => rfl⟩
  | crcByte b => exact ⟨crc8Step c b, .ok, fun s _ hc => by subst hc; rfl⟩
  | crcRead => exact ⟨c, .byte c, fun s _ hc => by subst hc; rfl⟩
  | encode dev ty reg reqLen payload =>
    obtain ⟨r, hr⟩ := execEncode_delivers dev ty reg reqLen payload
    exact ⟨c, r, fun s _ hc => by subst hc; exact hr s⟩
  | decode raw =>
    obtain ⟨r, hr⟩ := runDecode_delivers (of_decide_eq_true hi)
    exact ⟨c, r, fun s _ hc => by subst hc; exact hr s⟩
  | set f | get f | success f | failureUnknownRegister f | failureBadLength f | failureNotSupported f
  | failureBadPassword f | failureBadSignature f | failureHalError f | failureBadParameter f =>
    obtain ⟨r, hr⟩ := receiveFrame_delivers k _ hi
    exact ⟨c, r, fun s hk hc => by subst hc; exact hr s hk⟩

end Sys2Proof.Machine
end

section
/-! PROOF. Operations presented as words run one a step, in issue order (20_memory.md R44). -/

namespace Sys2Proof.Machine

/-- A run whose first step goes on. -/
theorem run_succ_of_step {M : Host.Core} {s u : M.State} (h : M.step s = .next u) (n : Nat) :
    M.run (n + 1) s = M.run n u := by
  rw [Host.Core.run, h]

theorem issue_cons_of_next {i : Instr} {s u : State} (h : exec i s = .next u) (ops : List Instr) :
    issue (i :: ops) s = issue ops u := by
  rw [issue, h]

/-- An accepted operation completes, keeps the port, and has the same effect whatever is waiting there. -/
theorem exec_with_inbox {i : Instr} (hi : presentable i = true) (s : State) (p q : List Arrival) :
    ∃ u, exec i { s with inbox := p } = .next u ∧ u.inbox = p ∧
      exec i { s with inbox := q } = .next { u with inbox := q } := by
  obtain ⟨c, r, h⟩ := exec_of_presentable hi s.codes s.crc
  exact ⟨_, h { s with inbox := p } rfl rfl, rfl, h { s with inbox := q } rfl rfl⟩

/-- One step with the words of a well-formed operation at the port is that operation, on the state with them taken
off. -/
theorem step_of_encodeWith {s : State} {i : Instr} {rest : List Arrival} (hp : s.phase = .running)
    (hk : s.codes.legal = true) (hi : i.wellFormed = true) (hin : s.inbox = .words (encodeWith s.codes i) :: rest) :
    step s = exec i { s with inbox := rest } := by
  have hstep := step_of_decodeWith (decodeWith_encodeWith hk hi) rest
  rwa [if_pos hp, ← hin] at hstep

/-- Settles O49, by induction on the operations: the first step executes the first of them with the words of the others
still at the port, where they make no difference to it, and leaves a running machine with the same parameters. -/
theorem runExecutesOperationsInIssueOrder : Obligations.RunExecutesOperationsInIssueOrder := by
  intro ops rest
  induction ops with
  | nil =>
    intro s _ _ _ hin
    obtain rfl : s.inbox = rest := hin
    exact ⟨s, rfl, rfl⟩
  | cons i ops ih =>
    intro s hp hk hwf hin
    obtain ⟨hi, hops⟩ := List.forall_mem_cons.mp hwf
    obtain ⟨u, hwaiting, hport, hexec⟩ := exec_with_inbox (presentable_of_wellFormed hi) s
      (ops.map (fun j => .words (encodeWith s.codes j)) ++ rest) rest
    have hcodes : u.codes = s.codes := by simpa using exec_codes hwaiting
    have hphase : u.phase = s.phase := by simpa using exec_phase hwaiting
    have hstep : step s = .next u := (step_of_encodeWith hp hk hi hin).trans hwaiting
    rw [issue_cons_of_next hexec, List.length_cons, run_succ_of_step (M := Sys2Proof.core) hstep]
    exact ih u (hphase.trans hp) (hcodes ▸ hk) hops (hcodes ▸ hport)

end Sys2Proof.Machine
end

section
/-! PROOF. Under legal parameters decoding undoes encoding; five written-out words decode (30_encoding.md R50, R55, R58,
R59). -/

namespace Sys2Proof

/-- Settles O50: the command byte or the type byte names the constructor, and the operands follow it. -/
theorem decodeOfEncodeIsTheOperation : Obligations.DecodeOfEncodeIsTheOperation :=
  fun _ _ hk hi => decodeWith_encodeWith hk hi

/-- Settles O53: both sides are closed, and the decoder computes. -/
theorem writtenOutWordsDecode : Obligations.WrittenOutWordsDecode :=
  ⟨rfl, rfl, rfl, rfl, rfl⟩

end Sys2Proof
end

section
/-! PROOF. Words that are accepted are the words of their operation and of no other (30_encoding.md R55, R58 to R60). -/

namespace Sys2Proof

/-! ### What each operand format accepts (R58): all the bytes it is given -/

theorem noOperand_ok {i j : Instr} {operands : Bytes} (h : noOperand i operands = .ok j) : operands = [] ∧ i = j := by
  cases operands with
  | nil => exact ⟨rfl, Except.ok.inj h⟩
  | cons => cases h

theorem oneOperand_ok {mk : Byte → Instr} {j : Instr} {operands : Bytes} (h : oneOperand mk operands = .ok j) :
    ∃ v, operands = [v] ∧ mk v = j := by
  match operands, h with
  | [v], h => exact ⟨v, rfl, Except.ok.inj h⟩

theorem sizedOperand_ok {mk : Bytes → Instr} {j : Instr} {n : Nat} {rest : Bytes}
    (h : sizedOperand mk n rest = .ok j) : rest.length = n ∧ mk rest = j := by
  unfold sizedOperand at h
  split at h
  · cases h
  · split at h
    · cases h
    · exact ⟨by omega, Except.ok.inj h⟩

theorem encodeOperands_ok {j : Instr} {operands : Bytes} (h : encodeOperands operands = .ok j) :
    ∃ dev ty reg reqLen plen payload, operands = [dev, ty, reg, reqLen, plen] ++ payload ∧
      payload.length = plen.toNat ∧ .encode dev ty reg reqLen payload = j := by
  match operands, h with
  | dev :: ty :: reg :: reqLen :: plen :: payload, h =>
    exact ⟨dev, ty, reg, reqLen, plen, payload, rfl, sizedOperand_ok h⟩

theorem decodeOperands_ok {j : Instr} {operands : Bytes} (h : decodeOperands operands = .ok j) :
    ∃ n raw, operands = n :: raw ∧ n.toNat ≤ 133 ∧ raw.length = n.toNat ∧ .decode raw = j := by
  cases operands with
  | nil => cases h
  | cons n raw =>
    rw [decodeOperands] at h
    split at h
    · cases h
    next hn => exact ⟨n, raw, rfl, Nat.not_lt.mp hn, sizedOperand_ok h⟩

/-- A length byte is the byte that encodes the length it announces. -/
theorem ofNat_length_eq {n : Byte} {B : Bytes} (h : B.length = n.toNat) : BitVec.ofNat 8 B.length = n := by
  rw [h, BitVec.ofNat_toNat, BitVec.setWidth_eq]

/-! ### Re-encoding -/

/-- R58: no byte of an accepted request is dropped. -/
theorem encodeWith_of_decodeRequestWith {k : Codes} {bytes : Bytes} {i : Instr}
    (h : decodeRequestWith k bytes = .ok i) : i.wellFormed = true ∧ encodeWith k i = .request bytes := by
  cases bytes with
  | nil => cases h
  | cons cmd operands =>
    unfold decodeRequestWith at h
    cases hc : Command.ofCode k cmd with
    | none => simp [hc] at h
    | some c =>
      obtain rfl := Command.cmd_of_ofCode hc
      cases c <;> simp only [hc] at h
      case crcClr | crcRead =>
        obtain ⟨rfl, rfl⟩ := noOperand_ok h
        exact ⟨rfl, rfl⟩
      case crcLoad | crcByte =>
        obtain ⟨v, rfl, rfl⟩ := oneOperand_ok h
        exact ⟨rfl, rfl⟩
      case encode =>
        obtain ⟨dev, ty, reg, reqLen, plen, payload, rfl, hlen, rfl⟩ := encodeOperands_ok h
        have hp : payload.length ≤ 255 := by omega
        exact ⟨decide_eq_true hp, by simp [encodeWith, ofNat_length_eq hlen]⟩
      case decode =>
        obtain ⟨n, raw, rfl, hn, hlen, rfl⟩ := decodeOperands_ok h
        have hraw : raw.length ≤ 133 := by omega
        exact ⟨decide_eq_true hraw, by simp [encodeWith, ofNat_length_eq hlen]⟩

@[simp] theorem wellFormed_ofFrame (t : PacketType) (f : FrameFields) :
    (Instr.ofFrame t f).wellFormed = f.wellFormed := by
  cases t <;> rfl

theorem ofFrame_ne_decode (t : PacketType) (f : FrameFields) (raw : Bytes) : Instr.ofFrame t f ≠ .decode raw := by
  cases t <;> simp [Instr.ofFrame]

/-- R55, R60: a frame that is accepted is a plain `DECODE`, or no byte of it is dropped. -/
theorem encodeWith_of_decodeFrameWith {k : Codes} {raw : Bytes} {i : Instr} (h : decodeFrameWith k raw = .ok i) :
    i = .decode raw ∨ i.wellFormed = true ∧ encodeWith k i = .frame raw := by
  unfold decodeFrameWith at h
  split at h
  · cases h
  next hn =>
    split at h
    next t f hc =>
      obtain rfl := Except.ok.inj h
      obtain rfl := bytes_of_classifyFrameWith hc
      have hlen := Laws.EncodedLength.frameBytes_length (k.type t) f
      have hbody : f.body.length ≤ 128 := by simp only [Config.rxMax] at hn; omega
      exact .inr ⟨(wellFormed_ofFrame t f).trans (decide_eq_true hbody), encodeWith_ofFrame k t f⟩
    next => exact .inl (Except.ok.inj h).symm

/-- Under legal codes no two well-formed operations have the same words, because the words decode to both. -/
theorem eq_of_encodeWith_of_decodeWith {k : Codes} (hk : k.legal = true) {w : Words} {i j : Instr}
    (hj : j.wellFormed = true) (he : encodeWith k j = w) (hd : decodeWith k w = .ok i) : j = i := by
  subst he
  exact Except.ok.inj ((decodeWith_encodeWith hk hj).symm.trans hd)

/-- Settles O51: accepted words re-encode format by format, and under legal codes decoding tells their operation apart
from every other. An operation with the words of an unclassified frame would be the `DECODE` of it, whose words are a
request. -/
theorem acceptedWordsReencode : Obligations.AcceptedWordsReencode := by
  refine ⟨fun k bytes i h => ?_, fun k raw t f h => ?_, fun k raw hk h j hj he => ?_⟩
  · obtain ⟨hwf, henc⟩ := encodeWith_of_decodeRequestWith h
    exact ⟨hwf, henc, fun hk j hj he => eq_of_encodeWith_of_decodeWith hk hj he h⟩
  · obtain hdec | ⟨hwf, henc⟩ := encodeWith_of_decodeFrameWith h
    · exact absurd hdec (ofFrame_ne_decode t f raw)
    · exact ⟨wellFormed_ofFrame t f ▸ hwf, henc, fun hk j hj he => eq_of_encodeWith_of_decodeWith hk hj he h⟩
  · obtain rfl := eq_of_encodeWith_of_decodeWith hk hj he h
    cases he

end Sys2Proof
end

section
/-! PROOF. The rows of the opcode table are told apart by the command byte and by the type byte (30_encoding.md R51,
R65). -/

namespace Sys2Proof

/-- Case analysis on an operation with the ten frames as one case. -/
theorem Instr.casesFrame {motive : Instr → Prop} (crcClr : motive .crcClr) (crcLoad : ∀ v, motive (.crcLoad v))
    (crcByte : ∀ b, motive (.crcByte b)) (crcRead : motive .crcRead)
    (encode : ∀ dev type reg reqLen payload, motive (.encode dev type reg reqLen payload))
    (decode : ∀ raw, motive (.decode raw)) (ofFrame : ∀ t f, motive (.ofFrame t f)) (i : Instr) : motive i := by
  cases i with
  | crcClr => exact crcClr
  | crcLoad v => exact crcLoad v
  | crcByte b => exact crcByte b
  | crcRead => exact crcRead
  | encode dev type reg reqLen payload => exact encode dev type reg reqLen payload
  | decode raw => exact decode raw
  | set f => exact ofFrame .set f
  | get f => exact ofFrame .get f
  | success f => exact ofFrame .success f
  | failureUnknownRegister f => exact ofFrame .failureUnknownRegister f
  | failureBadLength f => exact ofFrame .failureBadLength f
  | failureNotSupported f => exact ofFrame .failureNotSupported f
  | failureBadPassword f => exact ofFrame .failureBadPassword f
  | failureBadSignature f => exact ofFrame .failureBadSignature f
  | failureHalError f => exact ofFrame .failureHalError f
  | failureBadParameter f => exact ofFrame .failureBadParameter f

/-- The mask of a `FRAME` row takes the type byte out of the header word (R51). -/
theorem headerWord_and_typeMask (dev ty reg len : Byte) :
    headerWord dev ty reg len &&& 0x00FF0000 = ty.toNat * 0x10000 := by
  have hshift : headerWord dev ty reg len >>> 16 = dev.toNat * 256 + ty.toNat := by
    rw [Nat.shiftRight_eq_div_pow, headerWord]
    omega
  have hmask : headerWord dev ty reg len &&& 0x00FF0000 = ((headerWord dev ty reg len >>> 16) % 2 ^ 8) <<< 16 := by
    refine Nat.eq_of_testBit_eq fun i => ?_
    rw [show 0x00FF0000 = (2 ^ 8 - 1) <<< 16 from rfl]
    simp only [Nat.testBit_and, Nat.testBit_shiftLeft, Nat.testBit_mod_two_pow, Nat.testBit_two_pow_sub_one,
      Nat.testBit_shiftRight]
    by_cases hi : 16 ≤ i
    · simp [hi, Bool.and_comm]
    · simp [hi]
  rw [hmask, hshift, Nat.shiftLeft_eq]
  omega

/-- A row of the table that selects header words does so by the type byte (R65). -/
theorem Row.selects_frame {r : Row} (hr : r ∈ opcodeTable) (ty : Byte) (f : FrameFields) :
    r.selects (.frame (f.bytes ty)) = (32 == r.width && ty.toNat * 0x10000 == r.pattern) := by
  have hmask : ∀ r ∈ opcodeTable, r.width = 8 ∨ r.mask = 0x00FF0000 := by decide
  have hsel : r.selects (.frame (f.bytes ty)) =
      (32 == r.width && headerWord f.dev ty f.reg f.len &&& r.mask == r.pattern) := rfl
  rcases hmask r hr with h | h
  · simp [hsel, h]
  · rw [hsel, h, headerWord_and_typeMask]

/-- Settles O52: of a request the rows see the command byte alone, of a frame the type byte alone, and the sixteen codes
differ within each width. -/
theorem eachOperationHasItsOwnTableRow : Obligations.EachOperationHasItsOwnTableRow := by
  intro i
  cases i using Instr.casesFrame with
  | crcClr | crcLoad v | crcByte b | crcRead | encode dev ty reg reqLen payload | decode raw => rfl
  | ofFrame t f =>
    rw [encode, encodeWith_ofFrame, List.filter_congr fun r hr => Row.selects_frame hr _ f]
    cases t <;> rfl

end Sys2Proof
end

section
/-! PROOF. The pseudo-operations (30_encoding.md R63). -/

namespace Sys2Proof.Machine

theorem issue_singleton (i : Instr) (s : State) : issue [i] s = exec i s := by
  rw [issue]
  cases exec i s <;> rfl

/-- A run of `CRC.BYTE` operations and a `CRC.READ` leaves the checksum continued over their operands, and delivers it
(R83, R84). -/
theorem issue_crcBytes_crcRead (B : Bytes) (s : State) :
    ∃ t, issue (B.map .crcByte ++ [.crcRead]) s = .next t ∧ t.crc = crc8Update s.crc B ∧
      t.results.head? = some (.byte (crc8Update s.crc B)) := by
  obtain ⟨t, ht, hc⟩ := issue_crcBytes B s
  exact ⟨deliver (.byte t.crc) t, issue_append_of_next ht [.crcRead], hc, by
    rw [deliver_results, List.head?_cons, hc]⟩

/-- Settles O15: `CRC.CLR` starts the run of `CRC.BYTE` operations from `CRC_INIT`, `CRC.LOAD` from its operand; the two
others are one `ENCODE`. -/
theorem pseudoOperationsComputeTheSourceFunctions : Obligations.PseudoOperationsComputeTheSourceFunctions := by
  refine ⟨fun B s => ?_, fun c B s => ?_, fun _ _ _ _ => issue_singleton _, fun _ _ _ _ => issue_singleton _⟩
  · rw [crc8_eq]
    exact issue_crcBytes_crcRead B (deliver .ok (writeCrc Config.crcInit s))
  · exact issue_crcBytes_crcRead B (deliver .ok (writeCrc c s))

end Sys2Proof.Machine
end

section
/-! PROOF. The codec is blind to the packet type, and a frame of each type decodes to its fields (30_encoding.md R55,
R62, 41_encoder.md R92, 42_decoder.md R105, R111). -/

namespace Sys2Proof.Machine

/-- `decodePacket` on a buffer that ends in its checksum: only the declared length is left to check. -/
theorem decodePacket_of_checksum (dev ty reg len : Byte) (body : Bytes) :
    decodePacket ([dev, ty, reg, len] ++ body ++ [crc8 ([dev, ty, reg, len] ++ body)]) =
      if body.length < len.toNat then .error .truncated else .ok ⟨dev, ty, reg, len, body.take len.toNat⟩ := by
  rw [decodePacket_frame, if_neg (not_not.mpr rfl)]

/-- Settles O34: the size check does not read the type, which is byte 1 of the frame and is under the checksum; the
decoder's last check does not read it either. -/
theorem codecIsBlindToThePacketType : Obligations.CodecIsBlindToThePacketType := by
  refine ⟨fun dev t1 t2 reg reqLen payload F1 h => ?_, fun dev t1 t2 reg reqLen payload e h => ?_,
    fun dev t1 t2 reg len body p h => ?_⟩
  · cases hl : tooLarge reqLen payload with
    | true => simp [encodeFrame_of_tooLarge _ _ _ _ _ hl] at h
    | false =>
      rw [encodeFrame_of_fits _ _ _ _ _ hl] at h
      obtain rfl := Except.ok.inj h
      refine ⟨crc8Update (crc8 [dev, t2, reg, lenField reqLen payload]) payload, ?_⟩
      simp [encodeFrame_of_fits _ _ _ _ _ hl]
  · cases hl : tooLarge reqLen payload with
    | true =>
      cases e
      exact encodeFrame_of_tooLarge _ _ _ _ _ hl
    | false => simp [encodeFrame_of_fits _ _ _ _ _ hl] at h
  · rw [decodePacket_of_checksum] at h ⊢
    split at h
    · cases h
    next hfits =>
      obtain rfl := Except.ok.inj h
      rw [if_neg hfits]

/-- A frame of any type that passes the decoder's checks (R111). -/
theorem exec_ofFrame_of_frameChecks (t : PacketType) (f : FrameFields) (s : State)
    (h : frameChecks (s.codes.type t) f) :
    exec (.ofFrame t f) s = .next (deliver (.packet (framePacket (s.codes.type t) f)) s) := by
  obtain ⟨hbody, hcrc, hlen⟩ := h
  have hdecode : decodePacket (f.bytes (s.codes.type t)) = .ok (framePacket (s.codes.type t) f) := by
    rw [FrameFields.bytes, hcrc, decodePacket_of_checksum, if_neg (Nat.not_lt.mpr hlen), framePacket]
  rw [exec_ofFrame, receiveFrame_eq]
  exact exec_decode_of_ok (FrameFields.bytes_length_le (decide_eq_true hbody) _) hdecode s

/-- Settles O35: the type is data, so one argument serves all ten. -/
theorem framesDecodeToTheirFields : Obligations.FramesDecodeToTheirFields := fun f s =>
  ⟨exec_ofFrame_of_frameChecks .set f s, exec_ofFrame_of_frameChecks .get f s,
    exec_ofFrame_of_frameChecks .success f s, exec_ofFrame_of_frameChecks .failureUnknownRegister f s,
    exec_ofFrame_of_frameChecks .failureBadLength f s, exec_ofFrame_of_frameChecks .failureNotSupported f s,
    exec_ofFrame_of_frameChecks .failureBadPassword f s, exec_ofFrame_of_frameChecks .failureBadSignature f s,
    exec_ofFrame_of_frameChecks .failureHalError f s, exec_ofFrame_of_frameChecks .failureBadParameter f s⟩

end Sys2Proof.Machine
end

section
/-! PROOF. What a step does with words at the port, and that no effect depends on a code (30_encoding.md R55, R58,
20_memory.md R44, 60_exceptions.md R121). -/

namespace Sys2Proof.Machine

/-- R58: a running machine with words at the port that read as an operation. -/
theorem step_of_words {s : State} {w : Words} {i : Instr} {rest : List Arrival} (hp : s.phase = .running)
    (hd : decodeWith s.codes w = .ok i) (hin : s.inbox = .words w :: rest) :
    step s = exec i { s with inbox := rest } := by
  have hstep := step_of_decodeWith hd rest
  rwa [if_pos hp, ← hin] at hstep

/-- Settles O48: each clause is one of the cases of `fetch`. -/
theorem stepRunsTheDecodedOperation : Obligations.StepRunsTheDecodedOperation := by
  refine ⟨fun w i rest s => step_of_words, fun i rest s hp hin => ?_, fun s hin => ?_⟩
  · simp [step, fetch, hin, readArrival, hp]
  · simp [step, fetch, hin]

/-- One of the six operations, if accepted, writes and delivers the same under any parameters (R55). -/
theorem exec_with_codes {i : Instr} (hframe : ∀ t f, i ≠ .ofFrame t f) (hi : presentable i = true) (s : State) :
    ∃ c r, ∀ k : Codes, exec i { s with codes := k } = .next (deliver r (writeCrc c { s with codes := k })) := by
  cases i using Instr.casesFrame with
  | crcClr => exact ⟨Config.crcInit, .ok, fun _ => rfl⟩
  | crcLoad v => exact ⟨v, .ok, fun _ => rfl⟩
  | crcByte b => exact ⟨crc8Step s.crc b, .ok, fun _ => rfl⟩
  | crcRead => exact ⟨s.crc, .byte s.crc, fun _ => rfl⟩
  | encode dev ty reg reqLen payload =>
    obtain ⟨r, hr⟩ := execEncode_delivers dev ty reg reqLen payload
    exact ⟨s.crc, r, fun k => hr { s with codes := k }⟩
  | decode raw =>
    obtain ⟨r, hr⟩ := runDecode_delivers (of_decide_eq_true hi)
    exact ⟨s.crc, r, fun k => hr { s with codes := k }⟩
  | ofFrame t f => exact absurd rfl (hframe t f)

/-- Settles O55: no operation but a frame reads a code, and what a frame is read as runs the decoder on its bytes,
whatever the codes make of its type. -/
theorem effectsDoNotDependOnTheParameters : Obligations.EffectsDoNotDependOnTheParameters := by
  refine ⟨fun i s hframe hi => exec_with_codes hframe hi s, fun raw hn => ?_⟩
  obtain ⟨r, hr⟩ := runDecode_delivers hn
  refine ⟨r, fun s rest hp hin => ?_⟩
  obtain ⟨i, hd, hrun⟩ := decodeFrameWith_runs_runDecode s.codes hn
  calc step s = exec i { s with inbox := rest } := step_of_words (w := .frame raw) hp hd hin
    _ = runDecode raw { s with inbox := rest } := hrun _ rfl
    _ = .next (deliver r { s with inbox := rest }) := hr _

end Sys2Proof.Machine
end

section
/-! SUPPORT. Bit reversal, and the two facts about one round of the checksum that carry over to any number of rounds and
of bytes: reversal exchanges it with a round of the literal form, and it is linear (40_crc.md R70, R72, R76). -/

namespace Sys2Proof.Machine

theorem repeatTimes_eq_iterate (n : Nat) (f : Byte → Byte) : repeatTimes n f = f^[n] := by
  induction n with
  | zero => rfl
  | succ n ih => funext x; exact congrFun ih (f x)

/-! ### Bit reversal (R72) -/

/-- `rev(v)[i] = v[7-i]`. -/
theorem reverseBits_getLsbD (v : Byte) {i : Nat} (hi : i < 8) : (reverseBits v).getLsbD i = v.getLsbD (7 - i) := by
  rw [reverseBits, BitVec.getLsbD_ofBoolListLE]
  interval_cases i <;> rfl

theorem reverseBits_involutive : Function.Involutive reverseBits := fun v =>
  BitVec.eq_of_getLsbD_eq fun i hi => by
    rw [reverseBits_getLsbD _ hi, reverseBits_getLsbD v (by omega), Nat.sub_sub_self (by omega)]

theorem reverseBits_xor (v w : Byte) : reverseBits (v ^^^ w) = reverseBits v ^^^ reverseBits w :=
  BitVec.eq_of_getLsbD_eq fun i hi => by simp only [BitVec.getLsbD_xor, reverseBits_getLsbD _ hi]

/-- Reversal turns a left shift into a right shift. -/
theorem reverseBits_shiftLeft_one (v : Byte) : reverseBits (v <<< 1) = reverseBits v >>> 1 := by
  refine BitVec.eq_of_getLsbD_eq fun i hi => ?_
  rw [BitVec.getLsbD_ushiftRight, reverseBits_getLsbD _ hi, BitVec.getLsbD_shiftLeft]
  rcases Nat.lt_or_ge i 7 with h | h
  · rw [reverseBits_getLsbD _ (show 1 + i < 8 by omega)]
    simp [show 7 - i < 8 by omega, show 7 - i ≠ 0 by omega, show 7 - i - 1 = 7 - (1 + i) by omega]
  · obtain rfl : i = 7 := by omega
    simp

theorem reverseBits_crcPoly : reverseBits Config.crcPoly = Config.crcPolyReflected := by decide

/-- R72's reason, for one round: bit 7, which a left shift drops, is bit 0 of the reversed value, which a right shift
drops. -/
theorem reverseBits_semiconj_round : Function.Semiconj reverseBits literalRound crcRound := fun m => by
  rw [literalRound, crcRound, reverseBits_getLsbD m (by omega : 0 < 8), ← reverseBits_shiftLeft_one]
  cases m.getLsbD 7 with
  | false => rfl
  | true => exact (reverseBits_xor _ _).trans (by rw [reverseBits_crcPoly]; rfl)

/-- R72 for one byte. -/
theorem reverseBits_literalStep (m b : Byte) :
    reverseBits (repeatTimes 8 literalRound (m ^^^ reverseBits b)) = crc8Step (reverseBits m) b := by
  rw [crc8Step, repeatTimes_eq_iterate, repeatTimes_eq_iterate, reverseBits_semiconj_round.iterate_right 8,
    reverseBits_xor, reverseBits_involutive]

/-- R72 from any running value. -/
theorem reverseBits_literalUpdate (m : Byte) (B : Bytes) :
    reverseBits (literalUpdate m B) = crc8Update (reverseBits m) B := by
  induction B generalizing m with
  | nil => rfl
  | cons b B ih => rw [literalUpdate, ih, reverseBits_literalStep, crc8Update_cons]

/-! ### Linearity (R76) -/

/-- A round is a shift, and a constant exclusive-ored in when bit 0 is set. -/
theorem crcRound_eq (x : Byte) : crcRound x = x >>> 1 ^^^ bif x.getLsbD 0 then Config.crcPolyReflected else 0x00#8 := by
  rw [crcRound]
  cases x.getLsbD 0 with
  | false => exact BitVec.xor_zero.symm
  | true => rfl

/-- A constant that is exclusive-ored in twice cancels. -/
theorem cond_xor (p q : Bool) (v : Byte) :
    (bif p ^^ q then v else 0x00#8) = (bif p then v else 0x00#8) ^^^ bif q then v else 0x00#8 := by
  cases p <;> cases q <;> simp

/-- R76's reason: a round is linear. -/
theorem crcRound_xor : Function.Semiconj₂ crcRound (· ^^^ ·) (· ^^^ ·) := fun x y => by
  simp only [crcRound_eq, BitVec.getLsbD_xor, BitVec.ushiftRight_xor_distrib, cond_xor]
  ac_rfl

/-- R76 for a step, whatever the operands. -/
theorem crc8Step_xor_xor (c₁ c₂ b₁ b₂ : Byte) :
    crc8Step (c₁ ^^^ c₂) (b₁ ^^^ b₂) = crc8Step c₁ b₁ ^^^ crc8Step c₂ b₂ := by
  have hrounds := crcRound_xor.iterate 8 (c₁ ^^^ b₁) (c₂ ^^^ b₂)
  simp only [crc8Step, repeatTimes_eq_iterate, ← hrounds]
  ac_rfl

/-- R76 for a run, by induction on the two sequences together. -/
theorem crc8Update_xor_zipWith (c₁ c₂ : Byte) {B₁ B₂ : Bytes} (h : B₁.length = B₂.length) :
    crc8Update (c₁ ^^^ c₂) (List.zipWith (· ^^^ ·) B₁ B₂) = crc8Update c₁ B₁ ^^^ crc8Update c₂ B₂ := by
  induction B₁ generalizing c₁ c₂ B₂ with
  | nil =>
    obtain rfl := List.length_eq_zero_iff.mp h.symm
    rfl
  | cons b₁ B₁ ih =>
    obtain ⟨b₂, B₂, rfl⟩ := List.exists_cons_of_length_eq_add_one h.symm
    rw [List.zipWith_cons_cons, crc8Update_cons, crc8Step_xor_xor, ih _ _ (Nat.succ.inj h), crc8Update_cons,
      crc8Update_cons]

end Sys2Proof.Machine
end

section
/-! PROOF. The checksum functions (40_crc.md section 1). -/

namespace Sys2Proof.Machine

/-- Settles O1: reversal takes the literal run to the checksum, and 0x00 to 0x00. -/
theorem checksumAgreesWithItsLiteralForm : Obligations.ChecksumAgreesWithItsLiteralForm := by
  refine ⟨fun B => ?_, reverseBits_crcPoly, fun v i => reverseBits_getLsbD v⟩
  rw [crc8_eq, crc8Literal, Config.crcXorOut, BitVec.xor_zero, reverseBits_literalUpdate]
  rfl

/-- The printed table is the list of the 256 steps from 0x00. -/
theorem crcTable_eq : crcTable = (List.range 256).map fun n => crc8Step 0x00#8 (BitVec.ofNat 8 n) := by
  decide +kernel

/-- Settles O2: a step depends on its operands only through their exclusive-or, and the table holds the steps from
0x00. -/
theorem checksumStepIsTheTable : Obligations.ChecksumStepIsTheTable := by
  intro c b
  rw [crcTable_eq, List.getElem?_map, List.getElem?_range (c ^^^ b).isLt, Option.map_some, BitVec.ofNat_toNat,
    BitVec.setWidth_eq, ← crc8Step_xor]

/-- Settles O3: both are the composition law, by induction on the first sequence. -/
theorem checksumComposesOverConcatenation : Obligations.ChecksumComposesOverConcatenation :=
  ⟨fun A B => (crc8_append A B).symm, fun c A B => (crc8Update_append c A B).symm⟩

/-- Settles O4: a step and a run are linear because a round is; the table is a step from 0x00. -/
theorem checksumIsLinear : Obligations.ChecksumIsLinear :=
  ⟨crc8Step_xor_xor, fun c₁ c₂ _ _ => crc8Update_xor_zipWith c₁ c₂, fun i j => crc8Step_xor_xor 0x00#8 0x00#8 i j,
    by decide⟩

/-- Settles O5: every round can be undone, so a step is one-to-one; a one-to-one map of the bytes is onto. -/
theorem checksumStepIsOneToOne : Obligations.ChecksumStepIsOneToOne := by
  have hinj : Function.Injective (crc8Step 0x00#8) := fun b₁ b₂ => (crc8Step_right_inj 0x00#8 b₁ b₂).mp
  exact ⟨Finite.injective_iff_bijective.mp hinj, crc8Step_self 0x00#8, fun b c₁ c₂ => (crc8Step_left_inj c₁ c₂ b).mp,
    fun c b₁ b₂ => (crc8Step_right_inj c b₁ b₂).mp, crc8Step_eq_zero_iff⟩

/-- Settles O6: the last step gives 0x00 exactly when the byte equals the running value. -/
theorem residueIsZeroExactlyForTheChecksum : Obligations.ResidueIsZeroExactlyForTheChecksum :=
  crc8_concat_eq_zero_iff

/-- A zero byte leaves 0x00 at 0x00, so any number of them does. -/
theorem crc8_zeros (n : Nat) : crc8 (List.replicate n 0x00#8) = 0x00#8 := by
  rw [crc8_eq]
  induction n with
  | zero => rfl
  | succ n ih => rw [List.replicate_succ, crc8Update_cons, crc8Step_self, ih]

/-- R79. -/
theorem crc8_zeros_append (n : Nat) (B : Bytes) : crc8 (List.replicate n 0x00#8 ++ B) = crc8 B := by
  rw [crc8_append, crc8_zeros, ← crc8_eq]

/-- Settles O7: the zero bytes leave the running checksum at its initial value. -/
theorem leadingZeroBytesAreInvisible : Obligations.LeadingZeroBytesAreInvisible :=
  ⟨crc8_zeros_append, crc8_zeros⟩

/-- Settles O8: the changed byte gives another running value, and different running values never meet again. -/
theorem singleByteErrorsChangeTheChecksum : Obligations.SingleByteErrorsChangeTheChecksum :=
  fun _ _ _ => crc8_set_ne

/-- Settles O9: both sides are closed, and the checksum computes. -/
theorem checkValueOfNineDigits : Obligations.CheckValueOfNineDigits := by
  unfold Obligations.CheckValueOfNineDigits
  decide

end Sys2Proof.Machine
end

section
/-! PROOF. The four operations of the CRC unit (40_crc.md section 2), and a run of them (70_reset_and_hazards.md
R145). -/

namespace Sys2Proof.Machine

/-! ### What each operation does -/

theorem exec_crcClr (s : State) : exec .crcClr s = .next (deliver .ok (writeCrc 0x00#8 s)) := rfl

theorem exec_crcLoad (v : Byte) (s : State) : exec (.crcLoad v) s = .next (deliver .ok (writeCrc v s)) := rfl

theorem exec_crcByte (b : Byte) (s : State) :
    exec (.crcByte b) s = .next (deliver .ok (writeCrc (crc8Step s.crc b) s)) := rfl

theorem exec_crcRead (s : State) : exec .crcRead s = .next (deliver (.byte s.crc) s) := rfl

/-- Writing back what the register holds changes nothing. -/
theorem writeCrc_self {v : Byte} {s : State} (h : s.crc = v) : writeCrc v s = s := by
  subst h
  rfl

/-- The words of an operation without operands, or with one byte, are a request (R58). -/
theorem decodeRequestWith_of_encodeWith {k : Codes} (hk : k.legal = true) {i : Instr} {bytes : Bytes}
    (hi : i.wellFormed = true) (he : encodeWith k i = .request bytes) : decodeRequestWith k bytes = .ok i := by
  have hd := decodeWith_encodeWith hk hi
  rwa [he] at hd

/-- Settles O10: the operation writes `CRC_INIT`, as a reset does, and as `CRC.LOAD` of 0x00 does. -/
theorem crcClrStartsANewChecksum : Obligations.CrcClrStartsANewChecksum := by
  refine ⟨exec_crcClr, fun s t u hs ht => ?_, fun s t hs => ?_, fun _ => rfl,
    fun k hk => decodeRequestWith_of_encodeWith hk (i := .crcClr) rfl rfl⟩
  · obtain rfl := Host.Outcome.next.inj hs
    obtain rfl := Host.Outcome.next.inj ht
    rfl
  · obtain rfl := Host.Outcome.next.inj hs
    rfl

/-- Settles O11: `CRC.BYTE` operations continue from the loaded value. -/
theorem crcLoadSetsTheChecksum : Obligations.CrcLoadSetsTheChecksum := by
  refine ⟨exec_crcLoad, fun v B s => ?_, fun _ => rfl,
    fun k v hk => decodeRequestWith_of_encodeWith hk (i := .crcLoad v) rfl rfl⟩
  rw [issue_cons_of_next (exec_crcLoad v s)]
  exact issue_crcBytes B _

/-- Settles O12: a step of the running value with itself is 0x00. -/
theorem crcByteAbsorbsOneByte : Obligations.CrcByteAbsorbsOneByte := by
  refine ⟨exec_crcByte, fun s => ?_, fun s hs => ?_,
    fun k b hk => decodeRequestWith_of_encodeWith hk (i := .crcByte b) rfl rfl⟩
  · rw [exec_crcByte, crc8Step_self]
    rfl
  · have hzero : crc8Step s.crc 0x00#8 = 0x00#8 := by rw [hs, crc8Step_self]
    rw [exec_crcByte, hzero, writeCrc_self hs]
    rfl

/-- Settles O13: the operation leaves the register as it is for the `CRC.BYTE` operations after it, and delivers 0x00
where reset or `CRC.CLR` has just written it. -/
theorem crcReadDeliversTheChecksum : Obligations.CrcReadDeliversTheChecksum := by
  refine ⟨exec_crcRead, fun B s => ?_, ⟨_, exec_crcRead State.reset, rfl⟩, fun s => ?_,
    fun k hk => decodeRequestWith_of_encodeWith hk (i := .crcRead) rfl rfl⟩
  · rw [issue_cons_of_next (exec_crcRead s)]
    exact issue_crcBytes B _
  · rw [issue_cons_of_next (exec_crcClr s), issue_singleton]
    exact ⟨_, exec_crcRead _, rfl⟩

/-! ### A run -/

theorem absorbed_cons (i : Instr) (ops : List Instr) : absorbed (i :: ops) = absorbed [i] ++ absorbed ops := by
  cases i <;> rfl

/-- An accepted operation that leaves a checksum in progress absorbs the byte of a `CRC.BYTE` and nothing else. -/
theorem exec_of_continuesChecksum {i : Instr} (hi : continuesChecksum i = true) (hp : presentable i = true)
    (s : State) : ∃ t, exec i s = .next t ∧ t.crc = crc8Update s.crc (absorbed [i]) := by
  cases i with
  | crcClr | crcLoad v => cases hi
  | crcByte b => exact ⟨_, exec_crcByte b s, rfl⟩
  | crcRead => exact ⟨_, exec_crcRead s, rfl⟩
  | _ =>
    obtain ⟨c, r, hx⟩ := exec_of_presentable hp s.codes s.crc
    have hnext := hx s rfl rfl
    obtain ⟨r', -, ht⟩ := exec_codec_next rfl hnext
    have hcrc : (deliver r (writeCrc c s)).crc = s.crc := by rw [ht, deliver_crc]
    exact ⟨_, hnext, hcrc⟩

/-- Settles O14, by induction on the operations: each continues the checksum that the ones before it left. -/
theorem interleavedRunLeavesTheUpdatedChecksum : Obligations.InterleavedRunLeavesTheUpdatedChecksum := by
  intro ops
  induction ops with
  | nil => exact fun s _ => ⟨s, rfl, rfl⟩
  | cons i ops ih =>
    intro s h
    obtain ⟨⟨hi, hp⟩, hops⟩ := List.forall_mem_cons.mp h
    obtain ⟨u, hu, hcrc⟩ := exec_of_continuesChecksum hi hp s
    rw [issue_cons_of_next hu, absorbed_cons, crc8Update_append, ← hcrc]
    exact ih u hops

end Sys2Proof.Machine
end

section
/-! PROOF. The encoder: what `ENCODE` answers, when two frames are equal, and the streaming encoder (41_encoder.md
sections 1 to 3). -/

namespace Sys2Proof.Machine

/-! ### What `ENCODE` answers (R91, R93) -/

/-- The size check of R93 passes. -/
theorem tooLarge_eq_false_iff (reqLen : Byte) (payload : Bytes) :
    tooLarge reqLen payload = false ↔ ¬(128 < payload.length ∨ (payload = [] ∧ 128 < reqLen.toNat)) := by
  rw [← tooLarge_iff, Bool.not_eq_true]

/-- The frame with its checksum over all the bytes before it (R57), delivered with no other change (R96). -/
theorem exec_encode_of_fits {reqLen : Byte} {payload : Bytes} (h : tooLarge reqLen payload = false) (dev ty reg : Byte)
    (s : State) :
    exec (.encode dev ty reg reqLen payload) s =
      .next (deliver (.frame ([dev, ty, reg, lenField reqLen payload] ++ payload ++
        [crc8 ([dev, ty, reg, lenField reqLen payload] ++ payload)])) s) := by
  rw [crc8_append]
  exact exec_encode_of_ok (encodeFrame_of_fits dev ty reg reqLen payload h) s

/-- Settles O17: the hypotheses are that the size check passes, and the declared length is then as R91 says. -/
theorem encodeBuildsTheFrame : Obligations.EncodeBuildsTheFrame := by
  intro dev ty reg reqLen payload s hp hq
  have hfits : tooLarge reqLen payload = false := by
    rw [tooLarge_eq_false_iff]
    rintro (hl | ⟨he, hr⟩)
    · omega
    · exact absurd (hq he) (by omega)
  obtain ⟨-, hlen, hreq⟩ := lenField_of_fits reqLen payload hfits
  exact ⟨lenField reqLen payload, hlen, hreq, exec_encode_of_fits hfits dev ty reg s⟩

/-- Settles O18: the two clauses are the two answers of the size check. -/
theorem encodeFailsExactlyWhenTooLarge : Obligations.EncodeFailsExactlyWhenTooLarge :=
  fun dev ty reg reqLen payload s =>
    ⟨fun h => exec_encode_of_tooLarge ((tooLarge_iff reqLen payload).mpr h) s,
      fun h => ⟨_, exec_encode_of_fits ((tooLarge_eq_false_iff reqLen payload).mpr h) dev ty reg s⟩⟩

/-! ### Equal frames (R95) -/

/-- The payload decides the `LEN` field, unless it is empty: then the requested length does (R91). -/
theorem lenField_eq_iff (q₁ q₂ : Byte) (P : Bytes) : lenField q₁ P = lenField q₂ P ↔ (P = [] → q₁ = q₂) := by
  cases P with
  | nil => simp [lenField]
  | cons b P => simp [lenField]

/-- Where header, payload and checksum byte of a frame lie is told by its two ends. -/
theorem frame_eq_iff (d₁ t₁ r₁ l₁ d₂ t₂ r₂ l₂ c₁ c₂ : Byte) (P₁ P₂ : Bytes) :
    [d₁, t₁, r₁, l₁] ++ P₁ ++ [c₁] = [d₂, t₂, r₂, l₂] ++ P₂ ++ [c₂] ↔
      d₁ = d₂ ∧ t₁ = t₂ ∧ r₁ = r₂ ∧ l₁ = l₂ ∧ P₁ = P₂ ∧ c₁ = c₂ := by
  simp only [List.cons_append, List.nil_append, List.cons.injEq, List.append_singleton_inj]

/-- Settles O19: a frame gives back its header bytes and payload, and its `LEN` byte gives back the requested length
when there is no payload. Conversely the checksum is a function of the bytes before it. -/
theorem equalFramesHaveEqualOperands : Obligations.EqualFramesHaveEqualOperands := by
  intro d₁ t₁ r₁ q₁ d₂ t₂ r₂ q₂ P₁ P₂ F₁ F₂ h₁ h₂
  obtain ⟨-, rfl⟩ := encodeFrame_ok h₁
  obtain ⟨-, rfl⟩ := encodeFrame_ok h₂
  rw [frame_eq_iff]
  constructor
  · rintro ⟨hd, ht, hr, hl, rfl, -⟩
    exact ⟨hd, ht, hr, rfl, (lenField_eq_iff q₁ q₂ P₁).mp hl⟩
  · rintro ⟨rfl, rfl, rfl, rfl, hq⟩
    have hl : lenField q₁ P₁ = lenField q₂ P₁ := (lenField_eq_iff q₁ q₂ P₁).mpr hq
    exact ⟨rfl, rfl, rfl, hl, rfl, by rw [hl]⟩

/-! ### The streaming encoder (R98) -/

/-- Emitting a sequence byte by byte appends it to what is out and continues the running checksum over it. -/
theorem foldl_emit (B : Bytes) (t : Sender) : B.foldl Sender.emit t = ⟨t.out ++ B, crc8Update t.crc B⟩ := by
  induction B generalizing t with
  | nil => simp
  | cons b B ih => simp [ih, Sender.emit]

/-- Settles O20: when the size check passes, the running checksum at the end is the checksum of the bytes sent. -/
theorem streamingEncoderGivesTheSameFrame : Obligations.StreamingEncoderGivesTheSameFrame := by
  intro dev ty reg reqLen payload
  cases hl : tooLarge reqLen payload with
  | true => rw [encodeFrame_of_tooLarge _ _ _ _ _ hl, streamEncode, if_pos hl]
  | false =>
    rw [encodeFrame_of_fits _ _ _ _ _ hl, ← crc8_append, streamEncode, if_neg (by simp [hl]), foldl_emit, crc8_eq]
    rfl

end Sys2Proof.Machine
end

section
/-! SUPPORT. What `DECODE` answers, read both ways: from the buffer to the result, and from the result back to the buffer
(42_decoder.md R100 to R112). -/

namespace Sys2Proof.Machine

/-! ### The three answers to a header, a body and a checksum byte -/

/-- A body of at most 128 bytes fits a buffer that can be presented (R41, R50). -/
theorem frame_length_le (dev ty reg len c : Byte) {body : Bytes} (hb : body.length ≤ 128) :
    ([dev, ty, reg, len] ++ body ++ [c]).length ≤ 133 := by
  have hn : ([dev, ty, reg, len] ++ body ++ [c]).length = body.length + 5 := by simp
  omega

/-- The checksum byte is wrong, whatever the declared length is (R102, R110). -/
theorem exec_decode_wrongChecksum {dev ty reg len c : Byte} {body : Bytes} (hb : body.length ≤ 128)
    (hc : c ≠ crc8 ([dev, ty, reg, len] ++ body)) (s : State) :
    exec (.decode ([dev, ty, reg, len] ++ body ++ [c])) s = .next (raiseError .checksumMismatch s) := by
  have hd : decodePacket ([dev, ty, reg, len] ++ body ++ [c]) = .error .checksumMismatch := by
    rw [decodePacket_frame, if_pos hc]
  exact exec_decode_of_error (frame_length_le dev ty reg len c hb) hd s

/-- The checksum byte is right and the declared length does not fit (R103). -/
theorem exec_decode_unfitting {dev ty reg len c : Byte} {body : Bytes} (hb : body.length ≤ 128)
    (hc : c = crc8 ([dev, ty, reg, len] ++ body)) (hl : body.length < len.toNat) (s : State) :
    exec (.decode ([dev, ty, reg, len] ++ body ++ [c])) s = .next (raiseError .truncated s) := by
  have hd : decodePacket ([dev, ty, reg, len] ++ body ++ [c]) = .error .truncated := by
    rw [hc, decodePacket_of_checksum, if_pos hl]
  exact exec_decode_of_error (frame_length_le dev ty reg len c hb) hd s

/-- The checksum byte is right and the body is the declared payload with what exceeds it (R111, R33). -/
theorem exec_decode_fitting (dev ty reg : Byte) {len : Byte} {payload excess : Bytes} (hp : payload.length = len.toNat)
    (hb : (payload ++ excess).length ≤ 128) (s : State) :
    exec (.decode ([dev, ty, reg, len] ++ (payload ++ excess) ++
        [crc8 ([dev, ty, reg, len] ++ (payload ++ excess))])) s =
      .next (deliver (.packet ⟨dev, ty, reg, len, payload⟩) s) := by
  have hl : ¬ (payload ++ excess).length < len.toNat := by
    rw [List.length_append]
    omega
  refine exec_decode_of_ok (frame_length_le dev ty reg len _ hb) ?_ s
  rw [decodePacket_of_checksum, if_neg hl, List.take_left' hp]

/-! ### From the result back to the buffer -/

theorem exec_decode_packet_iff (raw : Bytes) (p : Packet) (s : State) :
    exec (.decode raw) s = .next (deliver (.packet p) s) ↔ raw.length ≤ 133 ∧ decodePacket raw = .ok p := by
  refine ⟨fun h => ?_, fun ⟨hn, hp⟩ => exec_decode_of_ok hn hp s⟩
  rcases runDecode_cases raw s with ⟨-, hx⟩ | ⟨hn, q, hq, hx⟩ | ⟨-, e, -, hx⟩
  · cases hx.symm.trans h
  · have hqp : q = p := by simpa [deliver] using hx.symm.trans h
    exact ⟨hn, hqp ▸ hq⟩
  · have hne := hx.symm.trans h
    simp [raiseError, deliver] at hne

theorem DecodeError.kind_injective : Function.Injective DecodeError.kind := fun d e => by
  cases d <;> cases e <;> simp [DecodeError.kind]

theorem exec_decode_error_iff (raw : Bytes) (e : DecodeError) (s : State) :
    exec (.decode raw) s = .next (raiseError e.kind s) ↔ raw.length ≤ 133 ∧ decodePacket raw = .error e := by
  refine ⟨fun h => ?_, fun ⟨hn, he⟩ => exec_decode_of_error hn he s⟩
  rcases runDecode_cases raw s with ⟨-, hx⟩ | ⟨-, p, -, hx⟩ | ⟨hn, d, hd, hx⟩
  · cases hx.symm.trans h
  · have hne := hx.symm.trans h
    simp [raiseError, deliver] at hne
  · have hde : d.kind = e.kind := by simpa [raiseError, deliver] using hx.symm.trans h
    exact ⟨hn, DecodeError.kind_injective hde ▸ hd⟩

/-! ### The checksum test as a residue (R78, R102) -/

theorem decodePacket_checksumMismatch_iff {raw : Bytes} (hn : 5 ≤ raw.length) :
    decodePacket raw = .error .checksumMismatch ↔ crc8 raw ≠ 0x00#8 := by
  refine ⟨fun h => ?_, decodePacket_of_residue_ne hn⟩
  obtain ⟨dev, ty, reg, len, body, c, rfl⟩ := buffer_shape raw hn
  rw [decodePacket_frame] at h
  rw [Ne, crc8_concat_eq_zero_iff]
  split at h
  next hc => exact hc
  next => split at h <;> cases h

theorem exec_decode_checksumMismatch_iff {raw : Bytes} (hmin : 5 ≤ raw.length) (hmax : raw.length ≤ 133) (s : State) :
    exec (.decode raw) s = .next (raiseError .checksumMismatch s) ↔ crc8 raw ≠ 0x00#8 := by
  rw [← decodePacket_checksumMismatch_iff hmin]
  exact (exec_decode_error_iff raw .checksumMismatch s).trans (and_iff_right hmax)

/-- `decodePacket` by the residue of the whole buffer, with the checksum byte not told apart from the body. -/
theorem decodePacket_by_residue (dev ty reg len b : Byte) (rest : Bytes) :
    decodePacket (dev :: ty :: reg :: len :: b :: rest) =
      if crc8 (dev :: ty :: reg :: len :: b :: rest) ≠ 0x00#8 then .error .checksumMismatch
      else if rest.length < len.toNat then .error .truncated
      else .ok ⟨dev, ty, reg, len, (b :: rest).take len.toNat⟩ := by
  obtain ⟨body, c, hbody⟩ : ∃ body c, b :: rest = body ++ [c] :=
    ⟨_, _, (List.dropLast_append_getLast (List.cons_ne_nil b rest)).symm⟩
  have hlen : rest.length = body.length := by simpa using congrArg List.length hbody
  have hraw : dev :: ty :: reg :: len :: b :: rest = [dev, ty, reg, len] ++ body ++ [c] := by simp [hbody]
  rw [hraw, hbody, hlen, decodePacket_frame]
  simp only [Ne, crc8_concat_eq_zero_iff]
  split
  · rfl
  split
  · rfl
  next hl => rw [List.take_append_of_le_length (Nat.not_lt.mp hl)]

/-- Both tests pass (R78, R103). -/
theorem decodePacket_of_residue_zero {dev ty reg len b : Byte} {rest : Bytes}
    (hc : crc8 (dev :: ty :: reg :: len :: b :: rest) = 0x00#8) (hl : len.toNat ≤ rest.length) :
    decodePacket (dev :: ty :: reg :: len :: b :: rest) = .ok ⟨dev, ty, reg, len, (b :: rest).take len.toNat⟩ := by
  rw [decodePacket_by_residue, if_neg (not_not.mpr hc), if_neg (Nat.not_lt.mpr hl)]

end Sys2Proof.Machine
end

section
/-! PROOF. The decoder: each answer of `DECODE`, and the streaming decoder (42_decoder.md sections 1 and 4). -/

namespace Sys2Proof.Machine

/-! ### What `DECODE` answers (R101 to R104, R110, R111) -/

/-- Settles O23: the length is tested first, before any byte is read. -/
theorem shortBufferIsTruncated : Obligations.ShortBufferIsTruncated := fun raw s h =>
  exec_decode_of_error (by omega) (decodePacket_short raw h) s

/-- Settles O21: the payload and the excess together are the body of the buffer. -/
theorem decodeDeliversThePacket : Obligations.DecodeDeliversThePacket := by
  intro dev ty reg len payload excess s hp hn
  rw [List.append_assoc [dev, ty, reg, len]]
  exact exec_decode_fitting dev ty reg hp (by rw [List.length_append]; omega) s

/-- Settles O22: the excess is what is left of the body after the declared length. -/
theorem deliveredPacketComesFromTheBuffer : Obligations.DeliveredPacketComesFromTheBuffer := by
  intro raw p s h
  obtain ⟨hn, hp⟩ := (exec_decode_packet_iff raw p s).mp h
  obtain ⟨hlen, hmax⟩ := (packet_wf_iff p).mp (decodePacket_ok_wf hn hp)
  obtain ⟨body, hraw, -, hpayload⟩ := decodePacket_ok hp
  refine ⟨hlen, hmax, body.drop p.len.toNat, ?_⟩
  rw [List.append_assoc [p.dev, p.type, p.reg, p.len], hpayload, List.take_append_drop]
  exact hraw

/-- Settles O24: both sides say that the residue of the buffer is not 0x00. -/
theorem wrongChecksumIsReported : Obligations.WrongChecksumIsReported := by
  intro M c s hmin hmax
  have hn : (M ++ [c]).length = M.length + 1 := List.length_append
  have hres : c ≠ crc8 M ↔ crc8 (M ++ [c]) ≠ 0x00#8 := (crc8_concat_eq_zero_iff M c).not.symm
  exact ⟨(exec_decode_checksumMismatch_iff (by omega) (by omega) s).trans hres.symm, hres⟩

/-- Settles O25: the checksum byte is right, so the declared length decides. -/
theorem unfittingLengthIsTruncated : Obligations.UnfittingLengthIsTruncated :=
  fun _ _ _ _ _ s hb hl => exec_decode_unfitting hb rfl hl s

/-- Settles O26: a wrong checksum byte is answered whatever the declared length is. -/
theorem checksumIsCheckedBeforeTheLength : Obligations.ChecksumIsCheckedBeforeTheLength :=
  fun _ _ _ _ _ _ s hb _ hc => exec_decode_wrongChecksum hb hc s

/-- Settles O27: a buffer that is long enough and checks has at most 128 bytes between header and checksum byte. -/
theorem overlongDeclaredLengthIsNeverAPacket : Obligations.OverlongDeclaredLengthIsNeverAPacket := by
  intro raw len s hmax hlen hover
  by_cases hn : raw.length < 5
  · exact .inl (shortBufferIsTruncated raw s hn)
  by_cases hc : crc8 raw = 0x00#8
  · have hunfit := decodePacket_of_unfitting (by omega) hc hlen (by omega)
    exact .inl (exec_decode_of_error hmax hunfit s)
  · exact .inr ((exec_decode_checksumMismatch_iff (by omega) hmax s).mpr hc)

/-! ### The streaming decoder (R114) -/

/-- Absorbing a sequence byte by byte holds it and continues the running checksum over it. -/
theorem foldl_absorb (B : Bytes) (t : Receiver) : B.foldl Receiver.absorb t = ⟨t.held ++ B, crc8Update t.crc B⟩ := by
  induction B generalizing t with
  | nil => simp
  | cons b B ih => simp [ih, Receiver.absorb]

theorem streamDecode_eq (raw : Bytes) : streamDecode raw = Receiver.complete ⟨raw, crc8 raw⟩ := by
  rw [streamDecode, foldl_absorb, crc8_eq, List.nil_append]

/-- Settles O28: the running checksum at the end is the residue of the buffer, which tests the checksum byte. -/
theorem streamingDecoderGivesTheSamePacket : Obligations.StreamingDecoderGivesTheSamePacket := by
  intro raw
  rw [streamDecode_eq]
  match raw with
  | [] | [_] | [_, _] | [_, _, _] | [_, _, _, _] => exact (decodePacket_short _ (by simp)).symm
  | dev :: ty :: reg :: len :: b :: rest => exact (decodePacket_by_residue dev ty reg len b rest).symm

end Sys2Proof.Machine
end

section
/-! PROOF. Laws connecting `ENCODE` and `DECODE`, and buffers with bytes before or after a frame (42_decoder.md R106 to R109,
R115). -/

namespace Sys2Proof.Machine

/-! ### What `ENCODE` built (R106 to R108) -/

/-- A frame that declares its payload's length decodes to what it was built from (R107). -/
theorem encode_decode_roundTrips (dev ty reg : Byte) {reqLen : Byte} {payload : Bytes} (hp : payload.length ≤ 128)
    (hq : payload ≠ [] ∨ reqLen = 0x00#8) (s : State) :
    ∃ F p, exec (.encode dev ty reg reqLen payload) s = .next (deliver (.frame F) s) ∧
      exec (.decode F) s = .next (deliver (.packet p) s) ∧
      p.dev = dev ∧ p.type = ty ∧ p.reg = reg ∧ p.len.toNat = payload.length ∧ p.payload = payload := by
  have hfits : tooLarge reqLen payload = false := by
    rcases hq with hne | rfl
    · rw [tooLarge_eq_false_iff]
      rintro (hl | ⟨he, -⟩)
      · omega
      · exact hne he
    · exact tooLarge_zero_of_length hp
  have hlen : (lenField reqLen payload).toNat = payload.length := by
    rcases hq with hne | rfl
    · exact (lenField_of_fits reqLen payload hfits).2.1 hne
    · rw [lenField_zero, toNat_ofNat_of_le_rxMax (by omega)]
  have hdecode := decodePacket_of_exact dev ty reg (lenField reqLen payload) hlen.symm
  exact ⟨_, _, exec_encode_of_fits hfits dev ty reg s, exec_decode_of_ok (frame_length_le _ _ _ _ _ hp) hdecode s,
    rfl, rfl, rfl, hlen, rfl⟩

/-- A buffer with no excess that decodes is what the four-operand `encode` builds from its packet (R107). -/
theorem encodeFrame_of_decodePacket {raw : Bytes} {p : Packet} (hmax : raw.length ≤ 133) (h : decodePacket raw = .ok p)
    (hn : raw.length = 5 + p.len.toNat) : encodeFrame p.dev p.type p.reg 0x00#8 p.payload = .ok raw := by
  obtain ⟨body, hraw, -, hpayload⟩ := decodePacket_ok h
  have hbody : body.length = p.len.toNat := by
    have hb : raw.length = body.length + 5 := by simp [hraw]
    omega
  have hwhole : p.payload = body := by rw [hpayload, ← hbody, List.take_length]
  have hfits : tooLarge 0x00#8 body = false := tooLarge_zero_of_length (by omega)
  rw [hwhole, encodeFrame_of_fits _ _ _ _ _ hfits, ← crc8_append, lenField_zero, ofNat_length_eq hbody, ← hraw]

/-- Settles O29: a frame that declares its payload's length has no excess, so nothing of it is lost either way. -/
theorem encodeThenDecodeRoundTrips : Obligations.EncodeThenDecodeRoundTrips := by
  refine ⟨fun dev ty reg reqLen payload s hp hq => encode_decode_roundTrips dev ty reg hp hq s,
    fun raw p s h hn => ?_⟩
  obtain ⟨hmax, hp⟩ := (exec_decode_packet_iff raw p s).mp h
  exact exec_encode_of_ok (encodeFrame_of_decodePacket hmax hp hn) s

/-- Settles O30: the frame declares the requested length and has no payload. -/
theorem requestFrameDoesNotDecode : Obligations.RequestFrameDoesNotDecode := by
  intro dev ty reg reqLen s hpos hmax
  have hfits : tooLarge reqLen [] = false := by
    rw [tooLarge_eq_false_iff]
    rintro (hl | ⟨-, hr⟩)
    · exact absurd hl (by decide)
    · omega
  exact ⟨_, exec_encode_of_fits hfits dev ty reg s, exec_decode_unfitting (body := []) (Nat.zero_le 128) rfl hpos s⟩

/-- Settles O31: the residue of a frame is 0x00, and one changed byte moves it. -/
theorem singleByteCorruptionIsDetected : Obligations.SingleByteCorruptionIsDetected :=
  fun _ _ _ _ _ _ _ _ _ h hi hb => corruptedFrame_checksumMismatch h hi hb

/-! ### Bytes before or after (R109, R115) -/

/-- All-zero buffers check, declare length 0, and decode to four zero bytes. -/
theorem decodePacket_zeros {n : Nat} (hn : 5 ≤ n) :
    decodePacket (List.replicate n 0x00#8) = .ok ⟨0x00#8, 0x00#8, 0x00#8, 0x00#8, []⟩ := by
  obtain ⟨m, rfl⟩ := Nat.exists_eq_add_of_le' hn
  exact decodePacket_of_residue_zero (crc8_zeros (m + 5)) (Nat.zero_le _)

/-- Settles O32: zero bytes in front leave the residue as it is. -/
theorem zeroBufferDecodesToTheZeroPacket : Obligations.ZeroBufferDecodesToTheZeroPacket := by
  refine ⟨fun n s hmin hmax => ?_, fun n raw s hmin hmax => ?_⟩
  · exact exec_decode_of_ok (by rwa [List.length_replicate]) (decodePacket_zeros hmin) s
  · have hn : (List.replicate n 0x00#8 ++ raw).length = n + raw.length := by simp
    have hlong := exec_decode_checksumMismatch_iff (raw := List.replicate n 0x00#8 ++ raw) (by omega) (by omega) s
    rw [crc8_zeros_append] at hlong
    exact hlong.trans (exec_decode_checksumMismatch_iff hmin (by omega) s).symm

/-- R115: after a buffer that checks the running checksum is at its initial value. -/
theorem crc8_append_of_residue_zero {F : Bytes} (hF : crc8 F = 0x00#8) (X : Bytes) : crc8 (F ++ X) = crc8 X := by
  rw [crc8_append, hF, crc8_eq]

/-- Bytes that keep the residue at 0x00 after a buffer that decodes are excess (R115, R33). -/
theorem decodePacket_append {F X : Bytes} {len : Byte} (hn : 5 ≤ F.length) (hF : crc8 F = 0x00#8) (hX : crc8 X = 0x00#8)
    (hlen : F[3]? = some len) (hl : len.toNat ≤ F.length - 5) :
    ∃ p, decodePacket F = .ok p ∧ decodePacket (F ++ X) = .ok p := by
  match F, hn with
  | dev :: ty :: reg :: l :: b :: rest, _ =>
    obtain rfl : l = len := by simpa using hlen
    have hfit : l.toNat ≤ rest.length := by simpa using hl
    have hlong := decodePacket_of_residue_zero (rest := rest ++ X) ((crc8_append_of_residue_zero hF X).trans hX)
      (hfit.trans (by simp))
    rw [← List.cons_append, List.take_append_of_le_length (Nat.le_succ_of_le hfit)] at hlong
    exact ⟨_, decodePacket_of_residue_zero hF hfit, hlong⟩

/-- Settles O33: the residue of the whole is the checksum of `X`, and when it is 0x00 `X` is excess. -/
theorem bytesAfterAValidFrame : Obligations.BytesAfterAValidFrame := by
  intro F X len s hmin hF hmax hlen
  have hn : (F ++ X).length = F.length + X.length := List.length_append
  have hcrc : crc8 (F ++ X) = crc8 X := crc8_append_of_residue_zero hF X
  refine ⟨hcrc, fun hX => ?_, fun hX hl => ?_⟩
  · exact (exec_decode_checksumMismatch_iff (by omega) (by omega) s).mpr (hcrc ▸ hX)
  · obtain ⟨p, hshort, hlong⟩ := decodePacket_append hmin hF hX hlen hl
    exact ⟨p, exec_decode_of_ok (by omega) hshort s, exec_decode_of_ok (by omega) hlong s⟩

end Sys2Proof.Machine
end

section
/-! PROOF. Frames of the ten types that fail a check of the decoder (42_decoder.md R102, R103, 60_exceptions.md R128). -/

namespace Sys2Proof.Machine

/-- A frame handed over is its bytes decoded (assumption 7). -/
theorem exec_ofFrame_eq_decode (t : PacketType) (f : FrameFields) (s : State) :
    exec (.ofFrame t f) s = exec (.decode (f.bytes (s.codes.type t))) s := by
  rw [exec_ofFrame, receiveFrame_eq]
  rfl

theorem exec_decode_of_tooLong {raw : Bytes} (hn : 133 < raw.length) (s : State) :
    exec (.decode raw) s = .refused (.rawTooLong raw.length) :=
  if_pos hn

/-- Settles O36: the type is data, so the three answers to a buffer of that shape serve all ten. -/
theorem framesThatFailTheChecks : Obligations.FramesThatFailTheChecks := by
  intro t f s
  rw [exec_ofFrame_eq_decode]
  refine ⟨fun hb hc => exec_decode_wrongChecksum hb hc s, fun hb hc hl => exec_decode_unfitting hb hc hl s,
    fun hb => ?_⟩
  have hn : (f.bytes (s.codes.type t)).length = 5 + f.body.length := Laws.EncodedLength.frameBytes_length _ _
  rw [exec_decode_of_tooLong (by omega), hn]

end Sys2Proof.Machine
end

section
/-! PROOF. Every accepted operation ends with one result of its own kinds, and an error leaves nothing else behind
(60_exceptions.md sections 1 and 2, R122 to R129). -/

namespace Sys2Proof.Machine

theorem decodeAnswer_kind (e : DecodeError) : decodeAnswer (.error e.kind) = true := by cases e <;> rfl

/-- The decoder answers a packet or one of its two errors (R122). -/
theorem runDecode_answers {raw : Bytes} {s t : State} (h : runDecode raw s = .next t) :
    ∃ r, decodeAnswer r = true ∧ t = deliver r s := by
  rcases runDecode_cases raw s with ⟨-, hx⟩ | ⟨-, p, -, hx⟩ | ⟨-, e, -, hx⟩
  · simp [hx] at h
  · exact ⟨.packet p, rfl, by simpa [hx] using h.symm⟩
  · exact ⟨.error e.kind, decodeAnswer_kind e, by simpa [hx, raiseError] using h.symm⟩

/-- The encoder answers a frame or its one error (R122). -/
theorem execEncode_answers {dev ty reg reqLen : Byte} {payload : Bytes} {s t : State}
    (h : execEncode dev ty reg reqLen payload s = .next t) : ∃ r, encodeAnswer r = true ∧ t = deliver r s := by
  rcases execEncode_cases dev ty reg reqLen payload s with ⟨F, -, hx⟩ | ⟨-, hx⟩
  · exact ⟨.frame F, rfl, by simpa [hx] using h.symm⟩
  · exact ⟨.error .payloadTooLarge, rfl, by simpa [hx, raiseError] using h.symm⟩

/-- An operation that completes delivers one result, of a kind R122 lists for it. -/
theorem exec_answers {i : Instr} {s t : State} (h : exec i s = .next t) :
    ∃ c r, canAnswer i r = true ∧ t = deliver r (writeCrc c s) := by
  cases i with
  | crcClr | crcLoad v | crcByte b => exact ⟨_, .ok, rfl, (Host.Outcome.next.inj h).symm⟩
  | crcRead => exact ⟨s.crc, .byte s.crc, rfl, (Host.Outcome.next.inj h).symm⟩
  | encode dev ty reg reqLen payload => exact ⟨s.crc, execEncode_answers h⟩
  | decode raw => exact ⟨s.crc, runDecode_answers h⟩
  | set f | get f | success f | failureUnknownRegister f | failureBadLength f | failureNotSupported f
  | failureBadPassword f | failureBadSignature f | failureHalError f | failureBadParameter f =>
    exact ⟨s.crc, runDecode_answers h⟩

/-- Settles O38: an accepted operation completes, and what completes answers one of its own kinds; there is no fault. -/
theorem everyAcceptedOperationAnswersOnce : Obligations.EveryAcceptedOperationAnswersOnce := by
  refine ⟨fun i s hi => ?_, fun s f => nomatch f⟩
  obtain ⟨c, r, hx⟩ := exec_of_presentable hi s.codes s.crc
  have hnext := hx s rfl rfl
  obtain ⟨c', r', hanswer, ht⟩ := exec_answers hnext
  exact ⟨c', r', hnext.trans (congrArg _ ht), hanswer⟩

/-- R123: an operation that ends in an error has done nothing but raise it. Only the codec can end so. -/
theorem eq_raiseError_of_exec {i : Instr} {e : ErrorKind} {s t : State} (h : exec i s = .next t)
    (he : t.results = .error e :: s.results) : t = raiseError e s := by
  cases i with
  | crcClr | crcLoad v | crcByte b | crcRead =>
    obtain rfl := Host.Outcome.next.inj h
    simp at he
  | _ =>
    obtain ⟨r, -, rfl⟩ := exec_codec_next rfl h
    obtain rfl : r = .error e := by simpa using he
    rfl

/-- Settles O41: raising an error keeps the register and the parameters, and a later operation depends on nothing
else. -/
theorem errorsLeaveNoTrace : Obligations.ErrorsLeaveNoTrace := by
  intro i e s t h he
  obtain rfl := eq_raiseError_of_exec h he
  refine ⟨rfl, fun j hj => ?_⟩
  obtain ⟨c, r, hx⟩ := exec_of_presentable hj s.codes s.crc
  exact ⟨c, r, hx s rfl rfl, hx (raiseError e s) (raiseError_codes e s) (raiseError_crc e s)⟩

end Sys2Proof.Machine
end

section
/-! PROOF. What the interface refuses (60_exceptions.md R128, 30_encoding.md R59, 20_memory.md R41). -/

namespace Sys2Proof

theorem Command.ofCode_eq_none {k : Codes} {b : Byte} (h : ∀ c : Command, k.cmd c ≠ b) : Command.ofCode k b = none :=
  List.find?_eq_none.mpr fun c _ => by simpa using h c

/-- A command byte that no operation has (R59). -/
theorem decodeRequestWith_of_unassigned {k : Codes} {cmd : Byte} (h : ∀ c : Command, k.cmd c ≠ cmd)
    (operands : Bytes) : decodeRequestWith k (cmd :: operands) = .error (.unassignedCommand cmd) := by
  simp [decodeRequestWith, Command.ofCode_eq_none h]

/-- A `DECODE` request that announces more than `RX_MAX` bytes (R41), whatever follows. -/
theorem decodeRequestWith_of_tooLong {k : Codes} (hk : k.legal = true) {n : Byte} (hn : 133 < n.toNat)
    (bytes : Bytes) : decodeRequestWith k (k.cmd .decode :: n :: bytes) = .error (.rawTooLong n.toNat) := by
  simp [decodeRequestWith, Command.ofCode_cmd hk, decodeOperands, hn]

/-- A frame of more than `RX_MAX` bytes (R41). -/
theorem decodeFrameWith_of_tooLong (k : Codes) {raw : Bytes} (hn : 133 < raw.length) :
    decodeFrameWith k raw = .error (.rawTooLong raw.length) :=
  if_pos hn

namespace Machine

/-- R128: a running machine with words at the port that are no operation. -/
theorem step_of_decodeWith_error {s : State} {w : Words} {r : RequestReject} {rest : List Arrival}
    (hp : s.phase = .running) (hin : s.inbox = .words w :: rest) (hd : decodeWith s.codes w = .error r) :
    step s = .refused (refusalOf r) := by
  simp [step, fetch, hin, readArrival, hd, hp, Except.map]

/-- Settles O45: the words that are no operation are refused as the decoder rejects them, an operation of the abstract
form as its own meaning refuses it, and anything before the first reset by the phase. -/
theorem interfaceRefusals : Obligations.InterfaceRefusals := by
  obtain ⟨-, runsOperation, -⟩ := stepRunsTheDecodedOperation
  refine ⟨fun cmd operands rest s hp hcmd hin => ?unassigned, fun n bytes rest s hp hk hn hin => ?request,
    fun raw rest s hp hn hin => ?operation, fun raw rest s hp hn hin => ?frame,
    fun a rest s hp ha hin => step_beforeFirstReset hp hin ha⟩
  case unassigned => exact step_of_decodeWith_error hp hin (decodeRequestWith_of_unassigned hcmd operands)
  case request => exact step_of_decodeWith_error hp hin (decodeRequestWith_of_tooLong hk hn bytes)
  case operation => exact (runsOperation _ rest s hp hin).trans (exec_decode_of_tooLong hn _)
  case frame => exact step_of_decodeWith_error hp hin (decodeFrameWith_of_tooLong s.codes hn)

end Machine

end Sys2Proof
end

section
/-! PROOF. Reset, and that no operation depends on another but through `CRC` (70_reset_and_hazards.md R140, R141, R145,
R146). -/

namespace Sys2Proof.Machine

/-- R140: a reset next at the port is applied in either phase. -/
theorem step_of_reset {s : State} {rest : List Arrival} (hin : s.inbox = .reset :: rest) :
    step s = .next (applyReset { s with inbox := rest }) := by
  simp [step, fetch, hin, readArrival]

/-- Settles O43: applying a reset writes `CRC_INIT` and sets the phase, and nothing else. -/
theorem resetEventClearsTheRegister : Obligations.ResetEventClearsTheRegister := fun _ _ => step_of_reset

/-- Settles O44: the reset leaves a running machine running, and both write `CRC_INIT`. -/
theorem resetAndCrcClrAreInterchangeable : Obligations.ResetAndCrcClrAreInterchangeable := by
  intro s rest hp
  obtain ⟨-, runsOperation, -⟩ := stepRunsTheDecodedOperation
  have hclr := runsOperation .crcClr rest { s with inbox := .operation .crcClr :: rest } hp rfl
  refine ⟨_, _, step_of_reset rfl, hclr.trans (exec_crcClr _), rfl, ?_⟩
  simp [applyReset, deliver, writeCrc, hp]

/-- Settles O39: what the codec delivers is a function of the operands, and for a frame of the parameters as well, since
they give its type byte. -/
theorem codecNeitherReadsNorWritesState : Obligations.CodecNeitherReadsNorWritesState := by
  refine ⟨execEncode_delivers, fun raw => runDecode_delivers, fun k t f hf => ?_⟩
  obtain ⟨r, hr⟩ := receiveFrame_delivers k t (decide_eq_true hf)
  exact ⟨r, fun s hs => (exec_ofFrame t f s).trans (hr s hs)⟩

/-- Settles O16: the saved value is `crc8(A)`, and `CRC.UPDATE` continues from the value it is given whatever state the
operations in between left. -/
theorem savedAndRestoredChecksumIsUninterrupted : Obligations.SavedAndRestoredChecksumIsUninterrupted := by
  intro A B between v s t u hsum hread _
  obtain ⟨crcSum, crcUpdate, -, -⟩ := pseudoOperationsComputeTheSourceFunctions
  obtain ⟨t', hsum', -, hread'⟩ := crcSum A s
  obtain rfl := Host.Outcome.next.inj (hsum.symm.trans hsum')
  obtain rfl : v = crc8 A := by simpa using hread.symm.trans hread'
  rw [crc8_append]
  exact crcUpdate (crc8 A) B u

end Sys2Proof.Machine
end
